-- ==== Sys2Proof/Word.lean ====
section
/-! DEFINITION. The word types of IRC-EE and the plainest operations on them (00_scope.md R6). -/

namespace Sys2Proof

/-- A byte: an EEPROM location, a bus byte, a register of `EE_BUF` (R60, R61, R27). -/
abbrev Byte := BitVec 8

/-- A 16-bit quantity: an EEPROM address, `RESULT`, a calibration field (R24, R60, R68). -/
abbrev Half := BitVec 16

/-- A command word, and the data of the host register port (R21, R100). -/
abbrev Word := BitVec 32

/-- A bank selector in its legal range 0..3 (R60). -/
abbrev Bank := BitVec 2

end Sys2Proof
end

