-- ==== Sys2Proof/Syntax.lean ====
section
/-! DEFINITION. The seven commands of IRC-EE, one constructor per row of spec/opcode_table.json (30_encoding.md R107),
and the statements of the assembler syntax (R118, R119). -/

namespace Sys2Proof

/-- A command of IRC-EE. Operands are the fields of R101 to R106 as they stand, unsigned (R110). -/
inductive Instr where
  /-- EESEL bank: the source's `selectBank` (R130). Eight bits, so that an illegal selector can be written (R102). -/
  | eesel (bank : Byte)
  /-- EERDB addr: the source's `readByte` (R133). -/
  | eerdb (addr : Half)
  /-- EERDBLK addr, len: the source's `readBlock` (R134). -/
  | eerdblk (addr : Half) (len : BitVec 7)
  /-- EEWRB addr, value: the source's `writeByte` (R152). -/
  | eewrb (addr : Half) (value : Byte)
  /-- EEWRBLK addr, len: the source's `writeBlock` (R153). The data is EE_BUF, not in the word (R110). -/
  | eewrblk (addr : Half) (len : BitVec 7)
  /-- IRTX command, address: the source's transmit operation (R172). -/
  | irtx (command : BitVec 7) (address : BitVec 5)
  /-- IRRX: the source's `receiveInfraredCommand` (R198). -/
  | irrx
deriving DecidableEq, Repr

/-- The opcode of R107, which STATUS.OP holds (R23). -/
def Instr.opcode : Instr → BitVec 3
  | .eesel _ => 1
  | .eerdb _ => 2
  | .eerdblk _ _ => 3
  | .eewrb _ _ => 4
  | .eewrblk _ _ => 5
  | .irtx _ _ => 6
  | .irrx => 7

/-- A statement of the assembler syntax: the seven commands and the three host directives of R118, and the four
pseudo-instructions of R119. Operands are numbers as written; their ranges are `Stmt.wellFormed`. -/
inductive Stmt where
  | eesel (bank : Nat)
  | eerdb (addr : Nat)
  | eerdblk (addr len : Nat)
  | eewrb (addr value : Nat)
  | eewrblk (addr len : Nat)
  | irtx (command address : Nat)
  | irrx
  /-- `BUFW i, v`: the host writes `v` to EE_BUF[i]. -/
  | bufw (i v : Nat)
  /-- `BUFR i`: the host reads EE_BUF[i]. -/
  | bufr (i : Nat)
  /-- `RES`: the host reads RESULT. -/
  | res
  | calrd
  | calwr
  | eewr16 (addr v : Nat)
  | eerd16 (addr : Nat)
deriving DecidableEq, Repr

end Sys2Proof
end

