-- ==== Sys2Proof/Decode.lean ====
section
/-! DEFINITION. The command word (30_encoding.md part 1): the opcode table of R107, the decoder of R100 to R108 and
R110, which rejects by name, and after it the encoder written from the same formats. -/

namespace Sys2Proof

/-- Why a word is illegal (R108). -/
inductive DecodeError where
  /-- Opcode 0x0 or 0x8 to 0xF: no row of R107. -/
  | noSuchOpcode (op : BitVec 4)
  /-- A legal opcode with a must-be-zero bit set. -/
  | mustBeZero (op : BitVec 4)
deriving DecidableEq, Repr

/-- A row of R107's opcode map. -/
structure OpRow where
  mnemonic : String
  pattern : Word
  mask : Word
deriving DecidableEq, Repr

/-- R107, in the order of the table. -/
def opcodeTable : List OpRow :=
  [⟨"EESEL", 0x10000000, 0xFFFFFF00⟩,
   ⟨"EERDB", 0x20000000, 0xFFFF0000⟩,
   ⟨"EERDBLK", 0x30000000, 0xFF800000⟩,
   ⟨"EEWRB", 0x40000000, 0xFF000000⟩,
   ⟨"EEWRBLK", 0x50000000, 0xFF800000⟩,
   ⟨"IRTX", 0x60000000, 0xFFFFF000⟩,
   ⟨"IRRX", 0x70000000, 0xFFFFFFFF⟩]

/-- "A word w is the instruction of a row iff w & mask = match" (R107). -/
def OpRow.isRowOf (r : OpRow) (w : Word) : Bool := w &&& r.mask == r.pattern

/-- The row of R107 a command belongs to. -/
def Instr.row : Instr → OpRow
  | .eesel _ => ⟨"EESEL", 0x10000000, 0xFFFFFF00⟩
  | .eerdb _ => ⟨"EERDB", 0x20000000, 0xFFFF0000⟩
  | .eerdblk _ _ => ⟨"EERDBLK", 0x30000000, 0xFF800000⟩
  | .eewrb _ _ => ⟨"EEWRB", 0x40000000, 0xFF000000⟩
  | .eewrblk _ _ => ⟨"EEWRBLK", 0x50000000, 0xFF800000⟩
  | .irtx _ _ => ⟨"IRTX", 0x60000000, 0xFFFFF000⟩
  | .irrx => ⟨"IRRX", 0x70000000, 0xFFFFFFFF⟩

/-- `i` where the must-be-zero field `z` of a word with opcode `op` is zero, the error by name where it is not (R100). -/
def ifZero {n : Nat} (op : BitVec 4) (z : BitVec n) (i : Instr) : Except DecodeError Instr :=
  if z = 0 then .ok i else .error (.mustBeZero op)

/-- The decoder. "Bits 31:28 are the opcode; the opcode alone selects the format. Every bit a format does not assign to
a field is a must-be-zero bit" (R100); fields as R110 takes them. -/
def decode (w : Word) : Except DecodeError Instr :=
  let op : BitVec 4 := w.extractLsb' 28 4
  if op = 0x1 then ifZero op (w.extractLsb' 8 20) (.eesel (w.extractLsb' 0 8))
  else if op = 0x2 then ifZero op (w.extractLsb' 16 12) (.eerdb (w.extractLsb' 0 16))
  else if op = 0x3 then ifZero op (w.extractLsb' 23 5) (.eerdblk (w.extractLsb' 0 16) (w.extractLsb' 16 7))
  else if op = 0x4 then ifZero op (w.extractLsb' 24 4) (.eewrb (w.extractLsb' 0 16) (w.extractLsb' 16 8))
  else if op = 0x5 then ifZero op (w.extractLsb' 23 5) (.eewrblk (w.extractLsb' 0 16) (w.extractLsb' 16 7))
  else if op = 0x6 then ifZero op (w.extractLsb' 12 16) (.irtx (w.extractLsb' 0 7) (w.extractLsb' 7 5))
  else if op = 0x7 then ifZero op (w.extractLsb' 0 28) .irrx
  else .error (.noSuchOpcode op)

/-- The word of a command: the formats N, B, A, AL, AV, F of R101 to R106, fields from bit 31 down. -/
def encode : Instr → Word
  | .eesel bank => (0x1#4 ++ 0#20 ++ bank : BitVec 32)
  | .eerdb addr => (0x2#4 ++ 0#12 ++ addr : BitVec 32)
  | .eerdblk addr len => (0x3#4 ++ 0#5 ++ len ++ addr : BitVec 32)
  | .eewrb addr value => (0x4#4 ++ 0#4 ++ value ++ addr : BitVec 32)
  | .eewrblk addr len => (0x5#4 ++ 0#5 ++ len ++ addr : BitVec 32)
  | .irtx command address => (0x6#4 ++ 0#16 ++ address ++ command : BitVec 32)
  | .irrx => (0x7#4 ++ 0#28 : BitVec 32)

/-- The word whose low `nbits` bits are those of `w`; every bit above is 0. A command is one 32-bit word (R100). -/
def commandWord (nbits w : Nat) : Word := BitVec.ofNat 32 (w % 2 ^ nbits)

/-- The command the decoder reads from an instruction whose bits are `w`. There is one length, 32 bits (R100), and the
word comes over the register port whole: no byte order applies. -/
def decodeTableWord (nbits w : Nat) : Option Instr :=
  match decode (commandWord nbits w) with
  | .ok i => some i
  | .error _ => none

end Sys2Proof
end

