-- ==== Sys2Proof/Config.lean ====
section
/-! DEFINITION. What an implementation of IRC-EE fixes (00_scope.md R5): the fixed parameters as constants, the open
ones as a record of plain data that a run carries, and the FREE VALUES, which no proof can see. -/

namespace Sys2Proof

/-- Which device answers the bus (R61): the reference device of R73 to R78, or an oracle whose every answer is open. -/
inductive DeviceModel where
  | reference
  | oracle
deriving DecidableEq, Repr

/-- What the button fallback does to `BTN_COUNT` (R192; U4 asks for a parameter). DESIGN CHOICE, log 21. -/
inductive BtnUpdate where
  /-- R192's `(BTN_COUNT + 1) mod 128` (D14). -/
  | plusOne
  /-- Some function of the count, unknown (U4): `Config.btnUpdate`. -/
  | unknown
deriving DecidableEq, Repr

/-- The parameters of a whole run that R5 leaves OPEN or that 93_implementation_defined.md makes parameters.
No step changes them. -/
structure Params where
  /-- T_RX_TICK, microseconds (R5, R202). -/
  tRxTick : Nat
  /-- RX_ONE_MIN, ticks (R5, R196). -/
  rxOneMin : Nat
  /-- RX_HDR_MIN, ticks (R5, R195). -/
  rxHdrMin : Nat
  /-- EE_BANKS_PRESENT: entry b is true where a device answers for bank b (R5, R74). -/
  banksPresent : Vector Bool 4
  /-- EE_CAPACITY, bytes per bank (R5, R75, R77). -/
  eeCapacity : Nat
  /-- EE_INVALID_BANK, the sentinel of R130 (R5): a parameter by U22, which requires of it only that it is no select code. -/
  eeInvalidBank : Byte
  /-- EE_POLL_MERGED (R5, R116). -/
  pollMerged : Bool
  /-- CAL_LITTLE_ENDIAN (R5, R67); the block itself is indifferent to it. -/
  calLittleEndian : Bool
  /-- U7: all banks share one write cycle (one chip); false is the reference device (R73). -/
  sharedCycle : Bool
  /-- U3: bits count before a header; false is R196. -/
  countBeforeHeader : Bool
  /-- U4: the update of `BTN_COUNT`; `plusOne` is R192. -/
  btnUpdate : BtnUpdate
  /-- The device model of R61. -/
  device : DeviceModel
deriving DecidableEq, Repr

/-- The defaults of R5. EE_BANKS_PRESENT has none in the spec: bank 0 alone is the vectors' assumption
(DESIGN CHOICE, log 7). -/
def Params.default : Params where
  tRxTick := 100
  rxOneMin := 9
  rxHdrMin := 18
  banksPresent := #v[true, false, false, false]
  eeCapacity := 65536
  eeInvalidBank := 0xFF
  pollMerged := false
  calLittleEndian := true
  sharedCycle := false
  countBeforeHeader := false
  btnUpdate := .plusOne
  device := .reference

namespace Config

/-- FRAME_BITS (R5). -/
def frameBits : Nat := 12
/-- TX_REPEATS (R5, R115). -/
def txRepeats : Nat := 3
/-- T_HDR, microseconds (R5, R112). -/
def tHdr : Nat := 2400
/-- T_GAP, microseconds (R5, R112). -/
def tGap : Nat := 600
/-- T_ONE, microseconds (R5, R112). -/
def tOne : Nat := 1200
/-- T_ZERO, microseconds (R5, R112). -/
def tZero : Nat := 600
/-- T_FRAME_GAP, microseconds (R5, R115, D7). -/
def tFrameGap : Nat := 45000
/-- F_CARRIER, hertz while the enable is on (R5, R173); generated outside the block, no rule reads it. -/
def fCarrier : Nat := 38000
/-- The value at which RX_PULSE saturates (R193, D12). -/
def rxPulseMax : Nat := 65535
/-- EE_PAGE, the page size P in bytes (R5, R151). -/
def eePage : Nat := 128
/-- EE_MAX_LEN, the greatest block length, and the number of bytes of EE_BUF (R5, R27). -/
def eeMaxLen : Nat := 127
/-- EE_CTRL_BASE, the control byte of bank 0, write phase (R5, R63). -/
def eeCtrlBase : Byte := 0xA0
/-- CAL_BANK, where the calibration record lives (R5, R68, D24). -/
def calBank : Bank := 0
/-- CAL_BASE (R5, R68). -/
def calBase : Half := 0

/-! Free values. Each is opaque: nothing evaluates it, so a claim holds whatever it is. The argument of type `Nat` is
the number of the draw (`Env.draws`), fresh at each draw (log 5). -/

/-- FREE VALUE. The byte a read gives where the spec calls it unspecified: an EE_BUF byte nothing has written since reset
(R27, U10), an EE_BUF byte read while BUSY = 1 (R21, U9), a bus byte no device drives (log 16), an oracle's byte (R61). -/
opaque freeByte : Nat → Byte

/-- FREE VALUE. The level of `ir_rx` at a tick whose sample nothing has supplied (R191; log 19). -/
opaque freeLevel : Nat → Bool

/-- FREE VALUE. The answer of the open model's device to a byte, true for ACK, where nothing has supplied it (R61; log 20). -/
opaque freeAck : Nat → Bool

/-- FREE VALUE. What a location of the EEPROM holds that nothing has written, by bank and address (R73, R77, U12; one
content per location, so that reading twice gives the same byte, R71; log 6). -/
opaque unwrittenByte : Bank → Nat → Byte

/-- FREE VALUE. The unknown update of BTN_COUNT (U4; log 21). -/
opaque btnUpdate : BitVec 7 → BitVec 7

/-- FREE VALUE. The device pointer after a reset cut a transaction short (R37, U11; log 15). -/
opaque cutPtr : Nat → Half

/-- FREE VALUE. How many bytes of an open latch still go into a write cycle after a reset cut the transaction short
(R37, U11; log 15). -/
opaque cutKept : Nat → Nat

end Config

end Sys2Proof
end

