-- ==== Sys2Proof/Machine/State.lean ====
section
/-! DEFINITION. The state of a run of IRC-EE: the block's registers (10_state.md R20 to R38), the EEPROM devices (20_memory.md
R73), the inputs a step reads (70_reset_and_hazards.md R266) and the run's parameters (00_scope.md R5). Plain data. -/

namespace Sys2Proof.Machine

/-- A byte memory: (address, byte) pairs, addresses strictly rising (`memWf`). An address that is not listed is one nothing
has written: it "holds no value" (R27, R73), and each reader says what it then gives (a free value; log 4, log 6). -/
abbrev Memory := List Host.Cell

/-! ## The block -/

/-- TX_PHASE (R28): the `Emit` of R171, R172 about to be issued. -/
inductive TxPhase where
  | idle | hdrOn | hdrGap | bitOn | bitGap | frameGap
deriving DecidableEq, Repr

/-- EE_PHASE (R30): the bus primitive of R131, R132, R150 about to be issued. -/
inductive EePhase where
  | idle | pollStart | pollCtrl | tStart | tCtrlW | tAddrHi | tAddrLo | tRstart | tCtrlR | tData | tStop
deriving DecidableEq, Repr

/-- An acknowledge slot (R61). -/
inductive Ack where
  | ack | nack
deriving DecidableEq, Repr

/-- An event of `bus_trace` (R36): `S`, `W(byte, ack)`, `R(byte, mack)`, `P`. -/
inductive BusEvent where
  | start
  | write (byte : Byte) (answer : Ack)
  | read (byte : Byte) (master : Ack)
  | stop
deriving DecidableEq, Repr

/-- A segment of `tx_trace` (R36, R170): the carrier enable at `level` for `us` microseconds. -/
structure Segment where
  level : Bool
  us : Nat
deriving DecidableEq, Repr

/-- The two wires at the symbol level (R35, R37, R61): `released` is the idle bus, `started` says that the last symbol was a
start condition (so the next byte is a control byte, R74), `opened` that a transaction is open and its control byte is past. -/
inductive BusState where
  | released | started | opened
deriving DecidableEq, Repr

/-- IR transmit sequencer (R28). -/
structure TxSeq where
  word : BitVec 12
  rep : BitVec 2
  bit : BitVec 4
  phase : TxPhase
  /-- The output pin `ir_tx_en` (R28, R35). -/
  irTxEn : Bool
deriving DecidableEq, Repr

/-- IR receive sequencer (R29). -/
structure RxSeq where
  pulse : BitVec 16
  bitCnt : BitVec 4
  value : BitVec 12
  hdr : Bool
deriving DecidableEq, Repr

/-- EEPROM sequencer (R30); `bank` and `rdByte` are the model's own (log 8, log 9). -/
structure EeSeq where
  addr : Half
  len : BitVec 7
  done : BitVec 7
  chunk : BitVec 7
  val : Byte
  phase : EePhase
  /-- EESEL's operand between its acceptance and its one step (R130, R266). DEDUCED, log 8. -/
  bank : Byte
  /-- EERDB's `d[0]` between its BusRead and its BusStop (R132, R133). DEDUCED, log 9. -/
  rdByte : Byte
deriving DecidableEq, Repr

/-- The state of the block (R20), and the two event histories kept for observation (R36). -/
structure Block where
  /-- STATUS.BUSY (R23). -/
  busy : Bool
  /-- STATUS.ILL (R23). -/
  ill : Bool
  /-- STATUS.OP (R23). -/
  op : BitVec 3
  /-- RESULT (R24). -/
  result : Half
  /-- EE_DEVSEL (R25). -/
  devsel : Byte
  /-- BTN.BTN_FLAG (R26). -/
  btnFlag : Bool
  /-- BTN.BTN_COUNT (R26). -/
  btnCount : BitVec 7
  /-- EE_BUF (R27), at addresses 0..126. -/
  buf : Memory
  tx : TxSeq
  rx : RxSeq
  ee : EeSeq
  /-- scl, sda (R35, R37). -/
  bus : BusState
  txTrace : List Segment
  busTrace : List BusEvent
deriving DecidableEq, Repr

/-! ## The EEPROM devices -/

/-- `mode_b` (R73). -/
inductive DevMode where
  | idle | writeAddr0 | writeAddr1 | writeData | read
deriving DecidableEq, Repr

/-- The device of one bank (R73); `ours` is the model's own (log 27). -/
structure BankDev where
  mem : Memory
  ptr : Half
  busy : Bool
  latch : List Host.Cell
  mode : DevMode
  /-- The write cycle in progress is one the host's command list started (R265). No step of the block or of a device reads it;
  `State.runOver` does. -/
  ours : Bool
deriving DecidableEq, Repr

/-! ## The other agents -/

/-- One entry of the host's command list (R118): a register write or read (R21), or the wait for BUSY = 0 that stands between
two statements (R118, R254), one read of STATUS at each turn. -/
inductive HostAct where
  | write (num : Byte) (data : Word)
  | read (num : Byte)
  | awaitIdle
deriving DecidableEq, Repr

/-- Whose step it is (R266). `idle` is nobody's: with `btnEvt` it is the button's own step. -/
inductive Agent where
  | idle
  | host
  | engine
  | commit (bank : Bank)
  | rst
deriving DecidableEq, Repr

/-- One turn: the agent, and the `btn_evt` input in that step (R225, R35). -/
structure Slot where
  agent : Agent
  btnEvt : Bool
deriving DecidableEq, Repr

/-- What surrounds the block: the host, the schedule and the inputs still to come (R266). No register of the spec. -/
structure Env where
  /-- The host's command list, what is left of it (R31, R265). -/
  prog : List HostAct
  /-- h_rdata: the value of the last host read (R21, R35). -/
  rdata : Word
  /-- The turns to come, next first; what happens when it is empty is `State.nextSlot` (log 2). -/
  agenda : List Slot
  /-- Samples of `ir_rx` for the ticks to come; free when used up (R191; log 19). -/
  irIn : List Bool
  /-- The open device's answers to come; free when used up (R61; log 20). -/
  ackIn : List Ack
  /-- The open device's bytes to come; free when used up (R61; log 20). -/
  byteIn : List Byte
  /-- How many free values have been drawn: each draw is fresh (log 5). -/
  draws : Nat
deriving DecidableEq, Repr

/-- The whole: the block, the four banks, what surrounds them, and the run's parameters, which no step writes. -/
structure State where
  blk : Block
  banks : Vector BankDev 4
  env : Env
  params : Params
deriving DecidableEq, Repr

/-! ## How a step can stop -/

/-- Faults. The hardware has none (R228). -/
inductive Fault where
  /-- Raised by an engine's step where BUSY = 1 and the sequencer stands at a position from which no rule gives a step (OP = 0;
  EE_PHASE or TX_PHASE IDLE in an operation that has a primitive to issue; a read phase in a write; a byte counter past its
  end). No run reaches one (`State.Coherent`). Safe: the model stops where the spec says nothing (log 13). -/
  | noPosition
deriving DecidableEq, Repr

/-- Refusals. -/
inductive Refusal where
  /-- An instruction without a meaning, by its mnemonic. Raised by no arm: every instruction has its meaning. Safe. -/
  | notModelled (mnemonic : String)
  /-- Raised by a start condition while a present device holds data bytes of a write that no stop condition has closed: "its
  fate is unspecified" (R76), U8 asks for a refusal "in the device model". The driver never produces it. Safe (log 14). -/
  | startOverOpenLatch
deriving DecidableEq, Repr

/-- The outcome of a step of this machine. -/
abbrev Result := Host.Outcome State Fault Refusal

/-! ## Reset values -/

/-- R28's and R37's reset values. -/
def TxSeq.reset : TxSeq := ⟨0, 0, 0, .idle, false⟩

/-- R29's and R37's reset values. -/
def RxSeq.reset : RxSeq := ⟨0, 0, 0, false⟩

/-- R30's and R37's reset values; `bank` and `rdByte` are the model's (log 8, log 9). -/
def EeSeq.reset : EeSeq := ⟨0, 0, 0, 0, 0, .idle, 0, 0⟩

/-- The block after reset (R37): STATUS 0x00, RESULT 0x0000, EE_DEVSEL 0xA0, BTN 0, EE_BUF holding no value, the sequencers
idle, the carrier off, the bus released, both traces empty. -/
def Block.reset : Block where
  busy := false
  ill := false
  op := 0
  result := 0
  devsel := 0xA0
  btnFlag := false
  btnCount := 0
  buf := []
  tx := TxSeq.reset
  rx := RxSeq.reset
  ee := EeSeq.reset
  bus := .released
  txTrace := []
  busTrace := []

/-- A device at the block's first reset: unspecified by R37; nothing written, nothing in progress (DESIGN CHOICE, log 6). -/
def BankDev.blank : BankDev := ⟨[], 0, false, [], .idle, false⟩

/-- Nothing to do and nothing to come (DESIGN CHOICE, log 2, log 3). -/
def Env.empty : Env := ⟨[], 0, [], [], [], [], 0⟩

/-- The machine right after reset: the block as R37 gives it, devices nothing has written, no program, R5's parameters. -/
def State.reset : State where
  blk := Block.reset
  banks := Vector.replicate 4 BankDev.blank
  env := Env.empty
  params := Params.default

end Sys2Proof.Machine
end

