-- ==== Sys2Proof/Machine/Ops.lean ====
section
/-! DEFINITION. The named operations over memory and registers: reading and writing a memory, drawing a free value, the
register updates, accepting a command, `done`, `raise IllegalCommand` and reset. The block has no trap (60_exceptions.md R228):
what stands where another machine takes an exception is `State.raiseIllegal` (R222) and the sentinel of EESEL. -/

namespace Sys2Proof.Machine

/-! ## Memory -/

/-- The byte listed at an address, none where nothing has written it. -/
def memRead : Memory → Nat → Option Byte
  | [], _ => none
  | (k, v) :: rest, a => if k = a then some v else memRead rest a

/-- Store one byte, keeping the addresses strictly rising. -/
def memWrite : Memory → Nat → Byte → Memory
  | [], a, v => [(a, v)]
  | (k, w) :: rest, a, v =>
    if a < k then (a, v) :: (k, w) :: rest
    else if a = k then (a, v) :: rest
    else (k, w) :: memWrite rest a v

/-- Store a list of cells in order: a later cell of the same address wins (R76). -/
def memWriteAll (m : Memory) (cells : List Host.Cell) : Memory :=
  cells.foldl (fun m c => memWrite m c.1 c.2) m

/-- The canonical form: addresses strictly rising and below `bound`. (An unlisted address holds no value, so no entry can equal
what it reads as.) -/
def memWf (bound : Nat) (m : Memory) : Bool :=
  decide ((m.map Prod.fst).Pairwise (· < ·)) && m.all (fun c => decide (c.1 < bound))

/-! ## Outcomes -/

/-- `f` after a next state; a stop stays a stop. -/
def thenNext (o : Result) (f : State → State) : Result :=
  match o with
  | .next t => .next (f t)
  | .fault r => .fault r
  | .refused r => .refused r

/-! ## Register updates -/

/-- Write the EEPROM sequencer. -/
def State.setEe (e : EeSeq) (s : State) : State := { s with blk.ee := e }

/-- Write EE_PHASE alone. -/
def State.setPhase (p : EePhase) (s : State) : State := s.setEe { s.blk.ee with phase := p }

/-- Write the transmit sequencer. -/
def State.setTx (t : TxSeq) (s : State) : State := { s with blk.tx := t }

/-- Write the receive sequencer. -/
def State.setRx (r : RxSeq) (s : State) : State := { s with blk.rx := r }

/-- Write EE_BUF as a whole. -/
def State.setBuf (m : Memory) (s : State) : State := { s with blk.buf := m }

/-- Write EE_DEVSEL (R25). -/
def State.setDevsel (v : Byte) (s : State) : State := { s with blk.devsel := v }

/-- Write BTN_FLAG and BTN_COUNT (R26). -/
def State.setBtn (flag : Bool) (count : BitVec 7) (s : State) : State :=
  { s with blk.btnFlag := flag, blk.btnCount := count }

/-- Write the devices. -/
def State.setBanks (v : Vector BankDev 4) (s : State) : State := { s with banks := v }

/-- Append an event to `bus_trace` (R36, R61) and leave the wires in `b`. -/
def State.logBus (e : BusEvent) (b : BusState) (s : State) : State :=
  { s with blk.busTrace := s.blk.busTrace ++ [e], blk.bus := b }

/-- Write what surrounds the block. -/
def State.setEnv (e : Env) (s : State) : State := { s with env := e }

/-! ## Free values and inputs -/

/-- Count one draw (log 5). -/
def State.bumpDraws (s : State) : State := s.setEnv { s.env with draws := s.env.draws + 1 }

/-- A fresh free byte. -/
def State.drawByte (s : State) : Byte × State := (Config.freeByte s.env.draws, s.bumpDraws)

/-- `SampleIr()` (R191): the level of `ir_rx` at this tick, an input of the step, free where none is supplied (log 19). -/
def State.sampleIr (s : State) : Bool × State :=
  match s.env.irIn with
  | l :: rest => (l, s.setEnv { s.env with irIn := rest })
  | [] => (Config.freeLevel s.env.draws, s.bumpDraws)

/-- An acknowledge as a value of `Bool`, true for ACK. -/
def ackOf (b : Bool) : Ack := if b then .ack else .nack

/-- The open device's answer to a byte, any value (R61; log 20). -/
def State.oracleAck (s : State) : Ack × State :=
  match s.env.ackIn with
  | a :: rest => (a, s.setEnv { s.env with ackIn := rest })
  | [] => (ackOf (Config.freeAck s.env.draws), s.bumpDraws)

/-- The open device's next byte, any value (R61; log 20). -/
def State.oracleByte (s : State) : Byte × State :=
  match s.env.byteIn with
  | b :: rest => (b, s.setEnv { s.env with byteIn := rest })
  | [] => s.drawByte

/-! ## EE_BUF -/

/-- EE_BUF[i]; a byte nothing has written since reset holds no value and gives a free byte (R27, U10; log 4). -/
def State.bufRead (i : Nat) (s : State) : Byte × State :=
  match memRead s.blk.buf i with
  | some v => (v, s)
  | none => s.drawByte

/-- EE_BUF[i] <- v, for i in 0..126 (R27); there is no other byte to write. -/
def State.bufWrite (i : Nat) (v : Byte) (s : State) : State :=
  if i < Config.eeMaxLen then s.setBuf (memWrite s.blk.buf i v) else s

/-! ## The life of a command -/

/-- Acceptance of a legal command word: BUSY <- 1, ILL <- 0, OP <- its opcode (R23). -/
def State.accept (op : BitVec 3) (s : State) : State :=
  { s with blk.busy := true, blk.ill := false, blk.op := op }

/-- `done(v)`: RESULT <- v, STATUS.BUSY <- 0 (R7, R24). -/
def State.done (v : Half) (s : State) : State :=
  { s with blk.result := v, blk.busy := false }

/-- `raise IllegalCommand`: STATUS.ILL <- 1 and nothing else (R222). -/
def State.raiseIllegal (s : State) : State := { s with blk.ill := true }

/-- A command's life (R266, log 1): where BUSY = 0, its acceptance; where its own operation is in progress (OP holds its
opcode, R23), the next step of its engine; where another operation is in progress, nothing (R230). -/
def life (op : BitVec 3) (accepted : State → State) (engine : State → Result) (s : State) : Result :=
  if s.blk.busy then
    if s.blk.op = op then engine s else .next s
  else .next (accepted (s.accept op))

/-! ## Reset -/

/-- A device whose transaction a reset of the block cut short: R37 calls the effect unspecified. Its pointer is free, a free
number of the bytes it had latched go into a write cycle, the rest are lost, and it waits for a start condition (log 15). A device that
at this symbol waits for a control byte keeps all its state, although the transaction may have been its own: after a start or a repeated
start whose control byte has not come, after a control byte it did not acknowledge, after the NACK of the last byte read (DESIGN CHOICE,
log 15). A cycle that so begins counts as the command list's (log 27). -/
def bankCut (draw : Nat) (d : BankDev) : BankDev :=
  if d.mode = .idle then d
  else
    let kept := d.latch.take (Config.cutKept draw)
    { d with ptr := Config.cutPtr draw, latch := kept, busy := d.busy || !kept.isEmpty, mode := .idle, ours := d.ours || !kept.isEmpty }

/-- A clock edge with rst = 1 (R250): the block takes the values of R37 whatever it was doing. The devices are not reset: a write
cycle in progress continues, and only a device whose mode is not idle is affected (R37; log 15). The host, its list and the inputs
to come are no state of the block and stay; so does `rdata`, the value on h_rdata, of which the spec says nothing at this edge
(DESIGN CHOICE, log 18). -/
def State.rst (s : State) : State :=
  { s with
    blk := Block.reset
    banks := s.banks.mapIdx (fun i d => bankCut (s.env.draws + i) d)
    env := { s.env with draws := s.env.draws + 4 } }

end Sys2Proof.Machine
end

