-- ==== Sys2Proof/Machine/Operands.lean ====
section
/-! DEFINITION. The operand forms: what acceptance loads (10_state.md R38), the control bytes (20_memory.md R63), the address
bytes (R64), the frame word (30_encoding.md R113), the chunk rule (41_eeprom_write.md R151), the command in progress. -/

namespace Sys2Proof.Machine

/-! ## The IR frame word -/

/-- `W = (address << 7) | command` (R113): `W[6:0]` the command, `W[11:7]` the address. -/
def frameWord (command : BitVec 7) (address : BitVec 5) : BitVec 12 := address ++ command

/-- `W[6:0]` (R113). -/
def frameCommand (w : BitVec 12) : BitVec 7 := w.extractLsb' 0 7

/-- `W[11:7]` (R113). -/
def frameAddress (w : BitVec 12) : BitVec 5 := w.extractLsb' 7 5

/-! ## Control and address bytes -/

/-- The write-phase control byte of a bank, `0xA0 | (bank << 1)` (R63, R114, R130), 8 bits. -/
def selectCode (bank : Byte) : Byte := Config.eeCtrlBase ||| (bank <<< 1)

/-- The read-phase control byte, `CW | 1` (R63). -/
def readCode (cw : Byte) : Byte := cw ||| 1

/-- The "7-bit device address", bits 7:1 of the select code (R25, R63). -/
def deviceAddress (cw : Byte) : BitVec 7 := cw.extractLsb' 1 7

/-- The bank a control byte names, bits 2:1 (R114). -/
def controlBank (c : Byte) : Bank := c.extractLsb' 1 2

/-- `addr[15:8]`, sent first (R64). -/
def addrHi (a : Half) : Byte := a.extractLsb' 8 8

/-- `addr[7:0]`, sent second (R64). -/
def addrLo (a : Half) : Byte := a.extractLsb' 0 8

/-! ## The chunk rule -/

/-- `pageBoundary = (addr | 127) + 1`, over the naturals, 128..65536 (R151). -/
def pageBoundary (addr : Half) : Nat := (addr.toNat ||| (Config.eePage - 1)) + 1

/-- `chunk = min(len, pageBoundary - addr)` (R151). -/
def pageChunk (addr : Half) (len : BitVec 7) : Nat := min len.toNat (pageBoundary addr - addr.toNat)

/-! ## What acceptance loads -/

/-- R38 for an EEPROM command: EE_ADDR, EE_LEN, EE_VAL loaded, EE_DONE and EE_CHUNK zero, and EE_PHASE at the first primitive of
the operation, or still IDLE where it issues none (log 10). -/
def State.loadEe (addr : Half) (len : BitVec 7) (val : Byte) (first : EePhase) (s : State) : State :=
  s.setEe { s.blk.ee with addr := addr, len := len, val := val, done := 0, chunk := 0, phase := first }

/-- Where a block command of `len` bytes begins: a command of no bytes issues no primitive (R134, R153, R266; log 10). -/
def firstPhase (len : BitVec 7) : EePhase := if len = 0 then .idle else .pollStart

/-- R38 for IRTX: all five registers of R28 are loaded; the first `Emit` is the header's (R171). -/
def State.loadTx (command : BitVec 7) (address : BitVec 5) (s : State) : State :=
  s.setTx { word := frameWord command address, rep := 0, bit := 0, phase := .hdrOn, irTxEn := false }

/-- R38, R190 for IRRX: all four registers of R29 zero. -/
def State.loadRx (s : State) : State := s.setRx { pulse := 0, bitCnt := 0, value := 0, hdr := false }

/-! ## The command in progress -/

/-- The operation in progress as a command (R23, R31): OP names it, and the operands are those its sequencer still holds (in
EEWRBLK what is left of the block, R30). None where BUSY = 0, and where OP is 0, which no command is. -/
def State.inProgress (s : State) : Option Instr :=
  if s.blk.busy then
    match s.blk.op.toNat with
    | 1 => some (.eesel s.blk.ee.bank)
    | 2 => some (.eerdb s.blk.ee.addr)
    | 3 => some (.eerdblk s.blk.ee.addr s.blk.ee.len)
    | 4 => some (.eewrb s.blk.ee.addr s.blk.ee.val)
    | 5 => some (.eewrblk s.blk.ee.addr s.blk.ee.len)
    | 6 => some (.irtx (frameCommand s.blk.tx.word) (frameAddress s.blk.tx.word))
    | 7 => some .irrx
    | _ => none
  else none

end Sys2Proof.Machine
end

