-- ==== Sys2Proof/Machine/Device.lean ====
section
/-! DEFINITION. The reference device (20_memory.md R73 to R78): what the four banks do at each bus primitive, and the commit
step that ends a write cycle. -/

namespace Sys2Proof.Machine

/-! ## One bank -/

/-- On `S`: "in any mode the device returns to waiting for a control byte, keeping ptr_b" (R76). -/
def bankOnStart (d : BankDev) : BankDev := { d with mode := .idle }

/-- Data bytes of a write that no stop condition has closed: the state in which an `S` has no stated effect (R76, U8). -/
def bankOpenLatch (d : BankDev) : Bool := !d.busy && !d.latch.isEmpty

/-- Does the bank take (and acknowledge) the next byte of the master (R75)? A device in its write cycle takes none (R76). -/
def bankTakes (d : BankDev) : Bool :=
  !d.busy && (d.mode == .writeAddr0 || d.mode == .writeAddr1 || d.mode == .writeData)

/-- A byte after the control byte (R75): pointer high, pointer low (the latch is emptied), then data, which goes to the latch
before the pointer advances inside its page. A bank that is not in a write mode ignores it. -/
def bankOnByte (capacity : Nat) (x : Byte) (d : BankDev) : BankDev :=
  if d.busy then d
  else
    match d.mode with
    | .writeAddr0 => { d with ptr := x ++ d.ptr.extractLsb' 0 8, mode := .writeAddr1 }
    | .writeAddr1 => { d with ptr := d.ptr.extractLsb' 8 8 ++ x, mode := .writeData, latch := [] }
    | .writeData =>
      { d with
        latch := d.latch ++ [(d.ptr.toNat % capacity, x)]
        ptr := d.ptr.extractLsb' 7 9 ++ (d.ptr.extractLsb' 0 7 + 1#7) }
    | .idle => d
    | .read => d

/-- On `P` (R76): a latch with bytes in it starts the write cycle, one of the list's (log 27); in every case the bank waits again. -/
def bankOnStop (d : BankDev) : BankDev :=
  { d with busy := d.busy || !d.latch.isEmpty, mode := .idle, ours := d.ours || bankOpenLatch d }

/-- The byte a bank in read mode drives, `mem_b[ptr_b mod EE_CAPACITY]` (R77); a location nothing has written has a content
that is free (U12, R71; log 6). -/
def bankData (bank : Bank) (capacity : Nat) (d : BankDev) : Byte :=
  let a := d.ptr.toNat % capacity
  match memRead d.mem a with
  | some v => v
  | none => Config.unwrittenByte bank a

/-- After `R(m)` a bank in read mode advances its pointer, and after NACK it waits (R77). -/
def bankAfterRead (m : Ack) (d : BankDev) : BankDev :=
  if d.mode = .read then
    { d with ptr := d.ptr + 1, mode := if m = .ack then .read else .idle }
  else d

/-- *commit* (R76): the latch is stored in order, the write cycle is over. Enabled while `busy_b`. -/
def bankCommit (d : BankDev) : BankDev :=
  if d.busy then { d with mem := memWriteAll d.mem d.latch, latch := [], busy := false, ours := false } else d

/-! ## The four banks on the bus -/

/-- The bank `b`. -/
def bankAt (v : Vector BankDev 4) (b : Bank) : BankDev := v[b.toNat]'b.isLt

/-- Replace the bank `b`. -/
def setBank (v : Vector BankDev 4) (b : Bank) (d : BankDev) : Vector BankDev 4 := v.set b.toNat d b.isLt

/-- What every bank does to itself, applied to the four. -/
def mapBanks (f : BankDev → BankDev) (v : Vector BankDev 4) : Vector BankDev 4 :=
  #v[f (bankAt v 0), f (bankAt v 1), f (bankAt v 2), f (bankAt v 3)]

/-- Is some bank so? -/
def anyBank (f : BankDev → Bool) (v : Vector BankDev 4) : Bool :=
  f (bankAt v 0) || f (bankAt v 1) || f (bankAt v 2) || f (bankAt v 3)

/-- A write cycle keeps the bank from answering: its own, or with U7's one chip any bank's (R74; log 21). -/
def bankBusy (p : Params) (v : Vector BankDev 4) (b : Bank) : Bool :=
  (bankAt v b).busy || (p.sharedCycle && anyBank (·.busy) v)

/-- Does a device acknowledge this control byte (R74)? Bits 7:4 are 0b1010, bit 3 is 0, the bank has a device (EE_BANKS_PRESENT),
and it is in no write cycle. -/
def controlAcked (p : Params) (v : Vector BankDev 4) (c : Byte) : Bool :=
  c.extractLsb' 4 4 == 0xA#4 && !c.getLsbD 3 && p.banksPresent[(controlBank c).toNat]'(controlBank c).isLt
    && !bankBusy p v (controlBank c)

/-- A control byte (R74): the bank that acknowledges goes to write-addr0 or, with bit 0 set, to read; nobody else moves, and a
slot nobody drives reads as NACK. -/
def devControl (p : Params) (c : Byte) (v : Vector BankDev 4) : Ack × Vector BankDev 4 :=
  if controlAcked p v c then
    (.ack, setBank v (controlBank c)
      { bankAt v (controlBank c) with mode := if c.getLsbD 0 then .read else .writeAddr0 })
  else (.nack, v)

/-- A byte after the control byte: every bank sees it and reacts by its mode (R75); ACK where some bank takes it. -/
def devByte (p : Params) (x : Byte) (v : Vector BankDev 4) : Ack × Vector BankDev 4 :=
  (ackOf (anyBank bankTakes v), mapBanks (bankOnByte p.eeCapacity x) v)

/-- The bank in read mode, which drives the bus at an `R` (R77). A control byte puts at most one bank into it. -/
def readingBank (v : Vector BankDev 4) : Option Bank :=
  [0, 1, 2, 3].find? (fun b : Bank => (bankAt v b).mode == .read)

end Sys2Proof.Machine
end

