-- ==== Sys2Proof/Machine/Bus.lean ====
section
/-! DEFINITION. The bus primitives (20_memory.md R61), one step of the EE engine each, and the read and page-write transactions of
40_eeprom_read.md R131, R132 and 41_eeprom_write.md R150, one EE_PHASE at a time. -/

namespace Sys2Proof.Machine

/-! ## Primitives -/

/-- `BusStart()` (R61): a start condition, repeated where a transaction is open. Over a latch that no stop has closed it is
refused (R76, U8; log 14). -/
def busStart (s : State) : Result :=
  match s.params.device with
  | .oracle => .next (s.logBus .start .started)
  | .reference =>
    if anyBank bankOpenLatch s.banks then .refused .startOverOpenLatch
    else .next ((s.setBanks (mapBanks bankOnStart s.banks)).logBus .start .started)

/-- The answer to a byte and what it does to the devices (R61, R74, R75): a control byte where the last symbol was a start
condition, else a byte of the open transaction. -/
def busAnswer (x : Byte) (s : State) : Ack × State :=
  match s.params.device with
  | .oracle => s.oracleAck
  | .reference =>
    match s.blk.bus with
    | .started =>
      let r := devControl s.params x s.banks
      (r.1, s.setBanks r.2)
    | _ =>
      let r := devByte s.params x s.banks
      (r.1, s.setBanks r.2)

/-- `BusWrite(x)` (R61). -/
def busWrite (x : Byte) (s : State) : Ack × State :=
  let r := busAnswer x s
  (r.1, r.2.logBus (.write x r.1) .opened)

/-- The byte of a `BusRead` and what it does to the devices (R61, R77); where no device drives the bus the byte is free
(log 16). -/
def busDatum (m : Ack) (s : State) : Byte × State :=
  match s.params.device with
  | .oracle => s.oracleByte
  | .reference =>
    match readingBank s.banks with
    | some b => (bankData b s.params.eeCapacity (bankAt s.banks b), s.setBanks (mapBanks (bankAfterRead m) s.banks))
    | none => s.drawByte

/-- `BusRead(m)` (R61). -/
def busRead (m : Ack) (s : State) : Byte × State :=
  let r := busDatum m s
  (r.1, r.2.logBus (.read r.1 m) .opened)

/-- `BusStop()` (R61): the bus is idle afterwards, and a device with latched bytes starts its write cycle (R76). -/
def busStop (s : State) : State :=
  match s.params.device with
  | .oracle => s.logBus .stop .released
  | .reference => (s.setBanks (mapBanks bankOnStop s.banks)).logBus .stop .released

/-! ## The phases the transactions share -/

/-- EE_PHASE = POLL_START, T_START or T_RSTART: a start condition, then `next`. -/
def startPhase (next : EePhase) (s : State) : Result :=
  thenNext (busStart s) (State.setPhase next)

/-- A byte whose answer is ignored (R135), then `next`. -/
def bytePhase (x : Byte) (next : EePhase) (s : State) : State :=
  (busWrite x s).2.setPhase next

/-- EE_PHASE = POLL_CTRL (R131): the write-phase control byte; ACK ends the poll, NACK goes "straight to the next start". With
EE_POLL_MERGED the acknowledged poll is the transaction's own control byte (R132). -/
def pollCtrl (s : State) : State :=
  let r := busWrite s.blk.devsel s
  match r.1 with
  | .ack => r.2.setPhase (if s.params.pollMerged then .tAddrHi else .tStart)
  | .nack => r.2.setPhase .pollStart

/-- One primitive of `MemRead(EE_ADDR, n)` (R132). `i` bytes have been read; `keep` stores the byte just read; `finish` is what
the operation does after the stop condition; `idle` is its step at EE_PHASE = IDLE. -/
def memReadStep (n i : Nat) (keep : Byte → State → State) (finish : State → State) (idle : Result) (s : State) : Result :=
  match s.blk.ee.phase with
  | .idle => idle
  | .pollStart => startPhase .pollCtrl s
  | .pollCtrl => .next (pollCtrl s)
  | .tStart => startPhase .tCtrlW s
  | .tCtrlW => .next (bytePhase s.blk.devsel .tAddrHi s)
  | .tAddrHi => .next (bytePhase (addrHi s.blk.ee.addr) .tAddrLo s)
  | .tAddrLo => .next (bytePhase (addrLo s.blk.ee.addr) .tRstart s)
  | .tRstart => startPhase .tCtrlR s
  | .tCtrlR => .next (bytePhase (readCode s.blk.devsel) .tData s)
  | .tData =>
    if i + 1 < n then
      let r := busRead .ack s
      .next ((keep r.1 r.2).setPhase .tData)
    else if i < n then
      let r := busRead .nack s
      .next ((keep r.1 r.2).setPhase .tStop)
    else .fault .noPosition
  | .tStop => .next (finish (busStop s))

/-- One data byte of `MemWrite`: sent, its answer ignored, EE_CHUNK counted down (R150); the last byte is followed by the stop. -/
def writeDatum (v : Byte) (s : State) : State :=
  let t := (busWrite v s).2
  t.setEe { t.blk.ee with
    chunk := t.blk.ee.chunk - 1
    phase := if t.blk.ee.chunk = 1 then .tStop else .tData }

/-- One primitive of `MemWrite(EE_ADDR, chunk, ...)` (R150). `chunk` is what EE_CHUNK is loaded with before the transaction (log
11); `datum` gives the next byte; `finish` is what the operation does after the stop condition; `idle` its step at IDLE. -/
def memWriteStep (chunk : Nat) (datum : State → Byte × State) (finish : State → State) (idle : Result) (s : State) : Result :=
  match s.blk.ee.phase with
  | .idle => idle
  | .pollStart => startPhase .pollCtrl (s.setEe { s.blk.ee with chunk := BitVec.ofNat 7 chunk })
  | .pollCtrl => .next (pollCtrl s)
  | .tStart => startPhase .tCtrlW s
  | .tCtrlW => .next (bytePhase s.blk.devsel .tAddrHi s)
  | .tAddrHi => .next (bytePhase (addrHi s.blk.ee.addr) .tAddrLo s)
  | .tAddrLo => .next (bytePhase (addrLo s.blk.ee.addr) .tData s)
  | .tRstart => .fault .noPosition
  | .tCtrlR => .fault .noPosition
  | .tData =>
    if s.blk.ee.chunk = 0 then .fault .noPosition
    else
      let r := datum s
      .next (writeDatum r.1 r.2)
  | .tStop => .next (finish (busStop s))

/-- The end of an EEPROM operation: EE_DONE and `done`, the sequencer IDLE (R133, R134, R152, R153; R31). -/
def eeDone (count : BitVec 7) (v : Half) (s : State) : State :=
  (s.setEe { s.blk.ee with done := count, phase := .idle }).done v

end Sys2Proof.Machine
end

