-- ==== Sys2Proof/Machine/EepromRead.lean ====
section
/-! DEFINITION. EEPROM bank select and read operations (40_eeprom_read.md): EESEL, EERDB, EERDBLK. -/

namespace Sys2Proof.Machine

/-- The step of EESEL after its acceptance (R130): a selector with bits outside 0..3 gives the sentinel and leaves EE_DEVSEL;
another is selected, and its select code is the result. No bus activity. -/
def eeselStep (s : State) : State :=
  let bank := s.blk.ee.bank
  if bank &&& 0xFC ≠ 0 then s.done (s.params.eeInvalidBank.zeroExtend 16)
  else (s.setDevsel (selectCode bank)).done ((selectCode bank).zeroExtend 16)

/-- EESEL bank (R130). Acceptance loads no register of R30 (R38); its operand waits in the model's own field (log 8). -/
def execEesel (bank : Byte) (s : State) : Result :=
  life 1 (fun s => s.setEe { s.blk.ee with bank := bank }) (fun s => .next (eeselStep s)) s

/-- The engine of EERDB (R133): `MemRead(EE_ADDR, 1)`; the byte becomes the result; EE_BUF is not touched. -/
def eerdbStep (s : State) : Result :=
  memReadStep 1 0
    (fun b t => t.setEe { t.blk.ee with rdByte := b })
    (fun t => eeDone 1 (t.blk.ee.rdByte.zeroExtend 16) t)
    (.fault .noPosition) s

/-- EERDB addr (R133). -/
def execEerdb (addr : Half) (s : State) : Result :=
  life 2 (State.loadEe addr 1 0 .pollStart) eerdbStep s

/-- The engine of EERDBLK (R134): `MemRead(EE_ADDR, EE_LEN)`, one transaction however many pages it spans; each byte goes to
EE_BUF[EE_DONE] as it arrives, and EE_DONE counts it. With no bytes to read, one step that only executes `done(0)`. -/
def eerdblkStep (s : State) : Result :=
  memReadStep s.blk.ee.len.toNat s.blk.ee.done.toNat
    (fun b t =>
      let u := t.bufWrite t.blk.ee.done.toNat b
      u.setEe { u.blk.ee with done := u.blk.ee.done + 1 })
    (fun t => eeDone t.blk.ee.done (t.blk.ee.done.zeroExtend 16) t)
    (if s.blk.ee.len = 0 then .next (s.done 0) else .fault .noPosition) s

/-- EERDBLK addr, len (R134). -/
def execEerdblk (addr : Half) (len : BitVec 7) (s : State) : Result :=
  life 3 (State.loadEe addr len 0 (firstPhase len)) eerdblkStep s

end Sys2Proof.Machine
end

