-- ==== Sys2Proof/Machine/EepromWrite.lean ====
section
/-! DEFINITION. EEPROM write operations (41_eeprom_write.md): EEWRB, EEWRBLK. -/

namespace Sys2Proof.Machine

/-- The engine of EEWRB (R152): `EE_CHUNK <- 1; MemWrite(EE_ADDR, 1, [EE_VAL]); EE_DONE <- 1; done(1)`. -/
def eewrbStep (s : State) : Result :=
  memWriteStep 1 (fun t => (t.blk.ee.val, t)) (fun t => eeDone 1 1 t) (.fault .noPosition) s

/-- EEWRB addr, value (R152). -/
def execEewrb (addr : Half) (value : Byte) (s : State) : Result :=
  life 4 (State.loadEe addr 1 value .pollStart) eewrbStep s

/-- The index in EE_BUF of the next byte of EEWRBLK: the bytes of the chunks already written, then those of this chunk already
sent (R153: `EE_BUF[EE_DONE .. EE_DONE + EE_CHUNK - 1]`). -/
def writeIndex (e : EeSeq) : Nat := e.done.toNat + (pageChunk e.addr e.len - e.chunk.toNat)

/-- The next byte of EEWRBLK, from EE_BUF; a byte nothing has written there is free (U10; log 4). -/
def blockDatum (s : State) : Byte × State := s.bufRead (writeIndex s.blk.ee)

/-- After the stop condition of a chunk of EEWRBLK (R153): EE_ADDR advances mod 2^16, EE_LEN and EE_DONE count; with bytes left
the next chunk is cut and polled for, else `done(EE_DONE)`. -/
def chunkDone (s : State) : State :=
  let e := s.blk.ee
  let n := pageChunk e.addr e.len
  let addr := e.addr + BitVec.ofNat 16 n
  let len := e.len - BitVec.ofNat 7 n
  let count := e.done + BitVec.ofNat 7 n
  if len = 0 then
    eeDone count (count.zeroExtend 16) (s.setEe { e with addr := addr, len := len })
  else
    s.setEe { e with
      addr := addr, len := len, done := count
      chunk := BitVec.ofNat 7 (pageChunk addr len), phase := .pollStart }

/-- The engine of EEWRBLK (R153): one page-write transaction per chunk of R151. With no bytes to write, one step that only
executes `done(0)`. -/
def eewrblkStep (s : State) : Result :=
  memWriteStep (pageChunk s.blk.ee.addr s.blk.ee.len) blockDatum chunkDone
    (if s.blk.ee.len = 0 then .next (s.done 0) else .fault .noPosition) s

/-- EEWRBLK addr, len (R153). -/
def execEewrblk (addr : Half) (len : BitVec 7) (s : State) : Result :=
  life 5 (State.loadEe addr len 0 (firstPhase len)) eewrblkStep s

end Sys2Proof.Machine
end

