-- ==== Sys2Proof/Machine/Flags.lean ====
section
/-! DEFINITION. The four one-bit flags of 10_state.md R32 (BUSY and ILL are set and cleared by `State.accept`, `State.done` and
`State.raiseIllegal`; RX_HDR by `classify` of IrReceive.lean), the STATUS and BTN words, and every way BTN_FLAG changes. -/

namespace Sys2Proof.Machine

/-- A flag as one bit. -/
def flagBit (b : Bool) : BitVec 1 := if b then 1 else 0

/-- STATUS as the host reads it (R23): bit 7 reserved 0, OP in 6:4, 3:2 reserved 0, ILL, BUSY. -/
def State.statusWord (s : State) : Byte :=
  (0#1 ++ s.blk.op ++ 0#2 ++ flagBit s.blk.ill ++ flagBit s.blk.busy : BitVec 8)

/-- BTN as the host reads it (R26): BTN_COUNT in 7:1, BTN_FLAG in 0. -/
def State.btnWord (s : State) : Byte := (s.blk.btnCount ++ flagBit s.blk.btnFlag : BitVec 8)

/-- A button event: BTN_FLAG <- 1 (R26, R225). -/
def State.buttonEvent (s : State) : State := s.setBtn true s.blk.btnCount

/-- A host write to BTN: "bit 0 written as 1 clears BTN_FLAG; every other bit ignored" (R21). -/
def State.hostWriteBtn (data : Word) (s : State) : State :=
  if data.getLsbD 0 then s.setBtn false s.blk.btnCount else s

/-- The new BTN_COUNT at a consumption: R192's `(BTN_COUNT + 1) mod 128`, or U4's unknown function (log 21). -/
def nextCount (u : BtnUpdate) (count : BitVec 7) : BitVec 7 :=
  match u with
  | .plusOne => count + 1
  | .unknown => Config.btnUpdate count

/-- `ButtonFallback()` (R192): BTN_FLAG <- 0, BTN_COUNT counts, `done(zext_16(BTN_COUNT))`. -/
def State.buttonFallback (s : State) : State :=
  let count := nextCount s.params.btnUpdate s.blk.btnCount
  (s.setBtn false count).done (count.zeroExtend 16)

end Sys2Proof.Machine
end

