-- ==== Sys2Proof/Machine/IrReceive.lean ====
section
/-! DEFINITION. The IR receive operation (43_ir_receive.md): one tick of R191 to R198, IRRX. -/

namespace Sys2Proof.Machine

/-- `RX_VALUE[k] <- b` (R196). -/
def setValueBit (v : BitVec 12) (k : Nat) (b : Bool) : BitVec 12 :=
  (v &&& ~~~(BitVec.twoPow 12 k)) ||| (if b then BitVec.twoPow 12 k else 0)

/-- A data bit (R196): it lands at RX_BITCNT; with the twelfth the operation ends (R197). -/
def acceptBit (b : Bool) (s : State) : State :=
  let r := s.blk.rx
  let value := setValueBit r.value r.bitCnt.toNat b
  let t := s.setRx { r with value := value, bitCnt := r.bitCnt + 1 }
  if r.bitCnt + 1 = 12 then t.done (value.zeroExtend 16) else t

/-- `Classify(L)` (R195, R196): a header resets the bit counter and the value; before a header a shorter pulse is discarded
(D11; with U3's parameter it counts, log 21); after one it is a 1 from RX_ONE_MIN on, else a 0. -/
def classify (l : Nat) (s : State) : State :=
  if s.params.rxHdrMin ≤ l then s.setRx { s.blk.rx with hdr := true, bitCnt := 0, value := 0 }
  else if s.blk.rx.hdr || s.params.countBeforeHeader then acceptBit (decide (s.params.rxOneMin ≤ l)) s
  else s

/-- RX_PULSE counts a high tick, saturating (R193). -/
def countPulse (p : BitVec 16) : BitVec 16 := BitVec.ofNat 16 (min (p.toNat + 1) Config.rxPulseMax)

/-- What a sample does (R193, R194): high counts; low after high is a falling edge and classifies the pulse; low after low
changes nothing. -/
def onSample (level : Bool) (s : State) : State :=
  if level then s.setRx { s.blk.rx with pulse := countPulse s.blk.rx.pulse }
  else if s.blk.rx.pulse = 0 then s
  else classify s.blk.rx.pulse.toNat (s.setRx { s.blk.rx with pulse := 0 })

/-- The engine of IRRX: one tick (R191, R198), the button flag first and then the sample. `WaitTick` passes time only, and the
model carries no clock (R266). -/
def irrxStep (s : State) : Result :=
  if s.blk.btnFlag then .next s.buttonFallback
  else
    let r := s.sampleIr
    .next (onSample r.1 r.2)

/-- IRRX (R198). -/
def execIrrx (s : State) : Result := life 7 State.loadRx irrxStep s

end Sys2Proof.Machine
end

