-- ==== Sys2Proof/Machine/IrTransmit.lean ====
section
/-! DEFINITION. The IR transmit operation (42_ir_transmit.md): `Emit`, the positions of R171 and R172, IRTX. -/

namespace Sys2Proof.Machine

/-- `Emit(level, d)` (R170): IR_TX_EN <- level for `d` microseconds, appended to `tx_trace`. -/
def emit (level : Bool) (d : Nat) (s : State) : State :=
  { s with blk.tx.irTxEn := level, blk.txTrace := s.blk.txTrace ++ [⟨level, d⟩] }

/-- The carrier-on time of a data bit (R112). -/
def bitOnTime (b : Bool) : Nat := if b then Config.tOne else Config.tZero

/-- After a frame's last gap (R172): TX_REP counts; before the third frame is sent an inter-frame gap follows, after it the
transmitter is IDLE, the carrier off, and `done(0)`. TX_BIT is 12 (R28). -/
def frameDone (s : State) : State :=
  let t := s.blk.tx
  if t.rep.toNat + 1 < Config.txRepeats then
    s.setTx { t with bit := t.bit + 1, rep := t.rep + 1, phase := .frameGap }
  else
    (s.setTx { t with bit := t.bit + 1, rep := t.rep + 1, phase := .idle, irTxEn := false }).done 0

/-- The engine of IRTX: one `Emit` of R171, R172, and the register updates up to the next one (R266; log 12). -/
def irtxStep (s : State) : Result :=
  let t := s.blk.tx
  match t.phase with
  | .idle => .fault .noPosition
  | .hdrOn => .next ((emit true Config.tHdr s).setTx { t with irTxEn := true, phase := .hdrGap })
  | .hdrGap => .next ((emit false Config.tGap s).setTx { t with irTxEn := false, bit := 0, phase := .bitOn })
  | .bitOn =>
    .next ((emit true (bitOnTime (t.word.getLsbD t.bit.toNat)) s).setTx { t with irTxEn := true, phase := .bitGap })
  | .bitGap =>
    let u := emit false Config.tGap s
    if t.bit.toNat + 1 < Config.frameBits then
      .next (u.setTx { t with irTxEn := false, bit := t.bit + 1, phase := .bitOn })
    else .next (frameDone u)
  | .frameGap => .next ((emit false Config.tFrameGap s).setTx { t with irTxEn := false, phase := .hdrOn })

/-- IRTX command, address (R172). -/
def execIrtx (command : BitVec 7) (address : BitVec 5) (s : State) : Result :=
  life 6 (State.loadTx command address) irtxStep s

end Sys2Proof.Machine
end

