-- ==== Sys2Proof/Machine/Dispatch.lean ====
section
/-! DEFINITION. One step of the life of a command: its acceptance where the block is idle, the next step of its engine where its
operation is in progress (70_reset_and_hazards.md R266; log 1). One arm per row of the opcode table. -/

namespace Sys2Proof.Machine

def exec (i : Instr) (s : State) : Host.Outcome State Fault Refusal :=
  match i with
  | .eesel bank => Sys2Proof.Machine.execEesel bank s
  | .eerdb addr => Sys2Proof.Machine.execEerdb addr s
  | .eerdblk addr len => Sys2Proof.Machine.execEerdblk addr len s
  | .eewrb addr value => Sys2Proof.Machine.execEewrb addr value s
  | .eewrblk addr len => Sys2Proof.Machine.execEewrblk addr len s
  | .irtx command address => Sys2Proof.Machine.execIrtx command address s
  | .irrx => Sys2Proof.Machine.execIrrx s

end Sys2Proof.Machine
end

