-- ==== Sys2Proof/Machine/HostPort.lean ====
section
/-! DEFINITION. The host register port (10_state.md R21, R22): one register read or write, the decoder at a write of CMD, and one
step of the host along its command list. -/

namespace Sys2Proof.Machine

/-- The index in EE_BUF of a register number 128 + i, i in 0..126 (R21). -/
def bufIndex (num : Byte) : Option Nat :=
  if 128 ≤ num.toNat ∧ num.toNat < 128 + Config.eeMaxLen then some (num.toNat - 128) else none

/-- A host read (R21): the register zero-extended to 32 bits. CMD and every reserved number read 0. EE_BUF while BUSY = 1 reads
an unspecified value (U9), while BUSY = 0 the byte there. -/
def regRead (num : Byte) (s : State) : Word × State :=
  match num.toNat with
  | 0 => (0, s)
  | 1 => (s.statusWord.zeroExtend 32, s)
  | 2 => (s.blk.result.zeroExtend 32, s)
  | 3 => (s.blk.devsel.zeroExtend 32, s)
  | 4 => (s.btnWord.zeroExtend 32, s)
  | _ =>
    match bufIndex num with
    | none => (0, s)
    | some i =>
      let r := if s.blk.busy then s.drawByte else s.bufRead i
      (r.1.zeroExtend 32, r.2)

/-- A word written to CMD (R100, R108, R230): dropped undecoded while BUSY = 1; else an illegal word raises IllegalCommand and a
legal one is the command's to accept. -/
def cmdWrite (data : Word) (s : State) : Result :=
  if s.blk.busy then .next s
  else
    match decode data with
    | .ok i => exec i s
    | .error _ => .next s.raiseIllegal

/-- A host write to a register other than CMD (R21): BTN clears its flag, EE_BUF keeps the low 8 bits while BUSY = 0, and every
other number ignores it. -/
def regWrite (num : Byte) (data : Word) (s : State) : State :=
  if num = 4 then s.hostWriteBtn data
  else
    match bufIndex num with
    | none => s
    | some i => if s.blk.busy then s else s.bufWrite i (data.truncate 8)

/-- A host write (R21). -/
def hostWrite (num : Byte) (data : Word) (s : State) : Result :=
  if num = 0 then cmdWrite data s else .next (regWrite num data s)

/-- A host read: its value stands at h_rdata (R21, R35). -/
def hostRead (num : Byte) (s : State) : State :=
  let r := regRead num s
  r.2.setEnv { r.2.env with rdata := r.1 }

/-- A command list is handed to the host (R265): it is what the host will do from here on, and no write cycle in progress is one that
it started (log 3, log 27). -/
def State.loadList (acts : List HostAct) (s : State) : State :=
  (s.setBanks (mapBanks (fun d => { d with ours := false }) s.banks)).setEnv { s.env with prog := acts }

/-- One step of the host (R266): the next access of its list. While it waits for BUSY = 0 each step is one read of STATUS
(R254), and the list does not advance until BUSY is 0. -/
def hostStep (s : State) : Result :=
  match s.env.prog with
  | [] => .next s
  | .write num data :: rest => hostWrite num data (s.setEnv { s.env with prog := rest })
  | .read num :: rest => .next (hostRead num (s.setEnv { s.env with prog := rest }))
  | .awaitIdle :: rest =>
    .next (hostRead 1 (if s.blk.busy then s else s.setEnv { s.env with prog := rest }))

end Sys2Proof.Machine
end

