-- ==== Sys2Proof/Machine/Agents.lean ====
section
/-! DEFINITION. The agents and their steps (70_reset_and_hazards.md R266), and whose turn is next. -/

namespace Sys2Proof.Machine

/-- The EE engine, the IRTX engine or the IRRX engine, whichever OP says (R266): enabled while BUSY = 1. -/
def engineStep (s : State) : Result :=
  if s.blk.busy then
    match s.inProgress with
    | some i => exec i s
    | none => .fault .noPosition
  else .next s

/-- The commit step of a bank (R76): it ends the write cycle of a bank that is in one, and is no step of another. -/
def commitStep (b : Bank) (s : State) : State := s.setBanks (setBank s.banks b (bankCommit (bankAt s.banks b)))

/-- One step of an agent. The turn of one that is not enabled changes nothing (log 2). -/
def agentStep (a : Agent) (s : State) : Result :=
  match a with
  | .idle => .next s
  | .host => hostStep s
  | .engine => engineStep s
  | .commit b => .next (commitStep b s)
  | .rst => .next s.rst

/-- A button event in the same step (R225): the flag ends set, whatever the step did to it (R26, R85, R227). A clock edge with
rst = 1 takes no event (R37, R250; log 24). -/
def withButton (sl : Slot) (s : State) : State :=
  if sl.btnEvt && !(sl.agent == .rst) then s.buttonEvent else s

/-- The first bank in a write cycle. -/
def committingBank (v : Vector BankDev 4) : Option Bank :=
  [0, 1, 2, 3].find? (fun b : Bank => (bankAt v b).busy)

/-- Whose turn it is when the agenda is used up: a fair order in which every enabled agent moves (R266, log 2). -/
def defaultAgent (s : State) : Agent :=
  match committingBank s.banks with
  | some b => .commit b
  | none => if s.blk.busy then .engine else if s.env.prog.isEmpty then .idle else .host

/-- The next turn. -/
def nextSlot (s : State) : Slot :=
  match s.env.agenda with
  | sl :: _ => sl
  | [] => ⟨defaultAgent s, false⟩

/-- The turn is taken. -/
def State.popSlot (s : State) : State := s.setEnv { s.env with agenda := s.env.agenda.tail }

/-- One step of the whole: the next turn's agent, and the button if it fires in that step. -/
def turn (s : State) : Result := thenNext (agentStep (nextSlot s).agent s.popSlot) (withButton (nextSlot s))

end Sys2Proof.Machine
end

