-- ==== Sys2Proof/Machine/Step.lean ====
section
/-! DEFINITION. One step of the machine, and how a command word is placed so that the very next step runs it. -/

namespace Sys2Proof.Machine

/-- One step: next, fault or refusal. -/
def step (s : State) : Host.Outcome State Fault Refusal := turn s

/-- The block with no operation in progress, so that CMD accepts a word (R100). -/
def State.quiet (s : State) : State :=
  { s with blk.busy := false, blk.ee.phase := .idle, blk.tx.phase := .idle, blk.tx.irTxEn := false }

/-- `s` with the command word placed where the next step takes it: it heads the host's command list as a write of CMD, the next
turn is the host's, and, since a busy block decodes nothing (R230), no operation is in progress (log 3). -/
def State.withFetchWord (s : State) (nbits w : Nat) : State :=
  let t := if s.blk.busy then s.quiet else s
  t.setEnv { t.env with
    prog := .write 0 (commandWord nbits w) :: t.env.prog
    agenda := ⟨.host, false⟩ :: t.env.agenda }

end Sys2Proof.Machine
end

