-- ==== Sys2Proof/WellFormed.lean ====
section
/-! DEFINITION. When a command and an assembler statement are well formed (30_encoding.md R109, R118). -/

namespace Sys2Proof

/-- Every term of `Instr` is a legal command: each operand has exactly the width of its field, and every value of every
field is legal (R109; EESEL with a bank above 3 is a legal word with an illegal value and completes with the sentinel). -/
def Instr.wellFormed : Instr → Bool
  | .eesel _ => true
  | .eerdb _ => true
  | .eerdblk _ _ => true
  | .eewrb _ _ => true
  | .eewrblk _ _ => true
  | .irtx _ _ => true
  | .irrx => true

/-- The operand ranges of R118: "an operand outside its field's range is an assembly error, not a truncation". R118 gives ranges for
the seven commands alone; that the operands of the directives and the 16-bit value of EEWR16 have ranges too, so that `BUFW i, v` with
`v` above 0xFF is an error and not the low 8 bits that R21's host write would keep, is the model's (DESIGN CHOICE, log 28). The address
of a two-byte transfer of R119 has the range of the statement it expands into. -/
def Stmt.wellFormed : Stmt → Bool
  | .eesel bank => decide (bank ≤ 255)
  | .eerdb addr => decide (addr ≤ 0xFFFF)
  | .eerdblk addr len => decide (addr ≤ 0xFFFF) && decide (len ≤ Config.eeMaxLen)
  | .eewrb addr value => decide (addr ≤ 0xFFFF) && decide (value ≤ 0xFF)
  | .eewrblk addr len => decide (addr ≤ 0xFFFF) && decide (len ≤ Config.eeMaxLen)
  | .irtx command address => decide (command ≤ 127) && decide (address ≤ 31)
  | .irrx => true
  | .bufw i v => decide (i < Config.eeMaxLen) && decide (v ≤ 0xFF)
  | .bufr i => decide (i < Config.eeMaxLen)
  | .res => true
  | .calrd => true
  | .calwr => true
  | .eewr16 addr v => decide (addr ≤ 0xFFFF) && decide (v ≤ 0xFFFF)
  | .eerd16 addr => decide (addr ≤ 0xFFFF)

end Sys2Proof
end

