-- ==== Sys2Proof/Machine/Assembler.lean ====
section
/-! DEFINITION. The assembler (30_encoding.md R118, R119): a statement as the host accesses it stands for. -/

namespace Sys2Proof.Machine

/-- Writing one command word, and the wait for BUSY = 0 before the next statement (R118, R254). -/
def command (i : Instr) : List HostAct := [.write 0 (encode i), .awaitIdle]

/-- `BUFW i, v`: host write of register 128 + i (R118). -/
def bufWriteAct (i v : Nat) : HostAct := .write (BitVec.ofNat 8 (128 + i)) (BitVec.ofNat 32 v)

/-- `BUFR i`: host read of register 128 + i (R118). -/
def bufReadAct (i : Nat) : HostAct := .read (BitVec.ofNat 8 (128 + i))

/-- What a well-formed statement stands for (R118; the pseudo-instructions by the expansions of R119). R119 gives EERD16 a value and no
accesses that fetch it: here the host reads EE_BUF[0] and then EE_BUF[1] (DESIGN CHOICE, log 29). -/
def expand : Stmt → List HostAct
  | .eesel bank => command (.eesel (BitVec.ofNat 8 bank))
  | .eerdb addr => command (.eerdb (BitVec.ofNat 16 addr))
  | .eerdblk addr len => command (.eerdblk (BitVec.ofNat 16 addr) (BitVec.ofNat 7 len))
  | .eewrb addr value => command (.eewrb (BitVec.ofNat 16 addr) (BitVec.ofNat 8 value))
  | .eewrblk addr len => command (.eewrblk (BitVec.ofNat 16 addr) (BitVec.ofNat 7 len))
  | .irtx c a => command (.irtx (BitVec.ofNat 7 c) (BitVec.ofNat 5 a))
  | .irrx => command .irrx
  | .bufw i v => [bufWriteAct i v]
  | .bufr i => [bufReadAct i]
  | .res => [.read 2]
  | .calrd => command (.eesel 0) ++ command (.eerdblk Config.calBase 14)
  | .calwr => command (.eesel 0) ++ command (.eewrblk Config.calBase 14)
  | .eewr16 addr v =>
    [bufWriteAct 0 (v % 256), bufWriteAct 1 (v / 256)] ++ command (.eewrblk (BitVec.ofNat 16 addr) 2)
  | .eerd16 addr => command (.eerdblk (BitVec.ofNat 16 addr) 2) ++ [bufReadAct 0, bufReadAct 1]

/-- Assembling a statement: "an operand outside its field's range is an assembly error, not a truncation" (R118). -/
def assemble (st : Stmt) : Option (List HostAct) := if st.wellFormed then some (expand st) else none

/-- Assembling a command list. -/
def assembleAll : List Stmt → Option (List HostAct)
  | [] => some []
  | st :: rest =>
    match assemble st, assembleAll rest with
    | some a, some b => some (a ++ b)
    | _, _ => none

end Sys2Proof.Machine
end

