-- ==== Sys2Proof/Machine/Calibration.lean ====
section
/-! DEFINITION. The CalibrationRecord (20_memory.md R67, R68): seven 16-bit fields at byte offsets 0 to 13. The block gives the
fields no meaning; it moves 14 bytes. -/

namespace Sys2Proof.Machine

/-- The record, fields in the order of their offsets (R68). -/
structure CalRecord where
  rotate90CW : Half
  rotate90CCW : Half
  rotateSlightCW : Half
  rotateSlightCCW : Half
  section1StartOffset : Half
  sensorToCenterOffset : Half
  betweenPointsDuration : Half
deriving DecidableEq, Repr

/-- A 16-bit field as its two bytes, the byte at the field's offset first (R67): little-endian puts `field[7:0]` there. -/
def fieldBytes (littleEndian : Bool) (v : Half) : List Byte :=
  if littleEndian then [v.extractLsb' 0 8, v.extractLsb' 8 8] else [v.extractLsb' 8 8, v.extractLsb' 0 8]

/-- The field made of the byte at its offset and the byte after it (R67, R119's `{EE_BUF[1], EE_BUF[0]}`). -/
def fieldOf (littleEndian : Bool) (b0 b1 : Byte) : Half := if littleEndian then b1 ++ b0 else b0 ++ b1

/-- The fields in order: field j at offset 2j (R68). -/
def CalRecord.fields (r : CalRecord) : List Half :=
  [r.rotate90CW, r.rotate90CCW, r.rotateSlightCW, r.rotateSlightCCW, r.section1StartOffset, r.sensorToCenterOffset,
    r.betweenPointsDuration]

/-- The 14 bytes of a record (R68). -/
def CalRecord.bytes (littleEndian : Bool) (r : CalRecord) : List Byte := r.fields.flatMap (fieldBytes littleEndian)

/-- The record that 14 bytes are the image of (R68). -/
def calRecordOf (littleEndian : Bool) : List Byte → Option CalRecord
  | [a0, a1, b0, b1, c0, c1, d0, d1, e0, e1, f0, f1, g0, g1] =>
    some ⟨fieldOf littleEndian a0 a1, fieldOf littleEndian b0 b1, fieldOf littleEndian c0 c1, fieldOf littleEndian d0 d1,
      fieldOf littleEndian e0 e1, fieldOf littleEndian f0 f1, fieldOf littleEndian g0 g1⟩
  | _ => none

/-- The record in EE_BUF[0..13], as the boot action CALRD leaves it (R252); none where a byte holds no value. -/
def State.calRecord (s : State) : Option CalRecord :=
  ((List.range 14).mapM (memRead s.blk.buf)).bind (calRecordOf s.params.calLittleEndian)

end Sys2Proof.Machine
end

