-- ==== Sys2Proof/Machine/Harness.lean ====
section
/-! DEFINITION. The bridge from a pulse-timing sequence to ticks (43_ir_receive.md R201, R202), and the durations of R174: what
closed-loop claims about the two IR engines are stated with. Harness, not hardware. -/

namespace Sys2Proof.Machine

/-- The level of a pulse-timing sequence at a time: segments end to end from time 0, level 0 after the last (R201). -/
def levelAt : List Segment → Nat → Bool
  | [], _ => false
  | sg :: rest, t => if t < sg.us then sg.level else levelAt rest (t - sg.us)

/-- `Sample` (R201): the first `n` samples at tick period `T` and phase `p`; tick i samples at `p + (i-1) * T`. -/
def samples (seg : List Segment) (T p n : Nat) : List Bool :=
  (List.range n).map (fun i => levelAt seg (p + i * T))

/-- `ceil(d/T)`. -/
def ceilDiv (d T : Nat) : Nat := (d + T - 1) / T

/-- The threshold constraints of R202. -/
def rxAdmissible (p : Params) : Bool :=
  decide (1 ≤ Config.tZero / p.tRxTick) && decide (1 ≤ Config.tGap / p.tRxTick)
    && decide (ceilDiv Config.tZero p.tRxTick < p.rxOneMin) && decide (p.rxOneMin ≤ Config.tOne / p.tRxTick)
    && decide (ceilDiv Config.tOne p.tRxTick < p.rxHdrMin) && decide (p.rxHdrMin ≤ Config.tHdr / p.tRxTick)
    && decide (p.rxHdrMin ≤ Config.rxPulseMax)

/-- The symbol of a data bit (R112). -/
def bitSegments (b : Bool) : List Segment := [⟨true, bitOnTime b⟩, ⟨false, Config.tGap⟩]

/-- The segments of `SendFrame(W)` (R171): the header, then bits 0 to 11. -/
def frameSegments (w : BitVec 12) : List Segment :=
  [⟨true, Config.tHdr⟩, ⟨false, Config.tGap⟩] ++ (List.range Config.frameBits).flatMap (fun k => bitSegments (w.getLsbD k))

/-- The segments of one IRTX (R172): three frames, an inter-frame gap after the first two. -/
def transmitSegments (w : BitVec 12) : List Segment :=
  frameSegments w ++ [⟨false, Config.tFrameGap⟩] ++ frameSegments w ++ [⟨false, Config.tFrameGap⟩] ++ frameSegments w

/-- How long a pulse-timing sequence lasts, in microseconds. -/
def duration (seg : List Segment) : Nat := (seg.map Segment.us).sum

/-- `ones(W)` (R174). -/
def ones (w : BitVec 12) : Nat := ((List.range Config.frameBits).filter (fun k => w.getLsbD k)).length

/-- The samples of high pulses, each with the gap of low samples after it, as (pulse, gap) lengths in ticks (R193, R194). -/
def pulseTrain (ps : List (Nat × Nat)) : List Bool :=
  ps.flatMap (fun p => List.replicate p.1 true ++ List.replicate p.2 false)

/-- How many ticks a pulse train takes up to the falling edge of its last pulse, that edge's tick among them (R197). -/
def ticksToLastEdge : List (Nat × Nat) → Nat
  | [] => 0
  | [p] => p.1 + 1
  | p :: q :: rest => p.1 + p.2 + ticksToLastEdge (q :: rest)

end Sys2Proof.Machine
end

