-- ==== Sys2Proof/Safety.lean ====
section
/-! DEFINITION. What claims about the machine are stated with: runs of an operation, the coherent states (in which every
sequencer stands where a rule puts it), which banks are ready, and the end of a run (70_reset_and_hazards.md R265). -/

namespace Sys2Proof.Machine

/-! ## Runs -/

/-- `n` steps of one command's life with no other agent between them. -/
def execTimes : Nat → Instr → State → Result
  | 0, _, s => .next s
  | n + 1, i, s =>
    match exec i s with
    | .next t => execTimes n i t
    | .fault r => .fault r
    | .refused r => .refused r

/-- A command word is still to be written by the host. -/
def HostAct.isCommand : HostAct → Bool
  | .write num _ => num == 0
  | .read _ => false
  | .awaitIdle => false

/-- A bank is in a write cycle that the command list started (R265; log 27). -/
def listCycle (d : BankDev) : Bool := d.busy && d.ours

/-- "The run is over" (R265): no command of the list is still to be written, the last one's operation has executed `done`, and every
write cycle the list started has ended. What the list still has of register accesses that are no commands does not matter: "this
definition does not say that the host reads any result". -/
def State.runOver (s : State) : Bool :=
  !s.env.prog.any HostAct.isCommand && !s.blk.busy && !anyBank listCycle s.banks

/-! ## Reading a byte of the EEPROM -/

/-- The byte a bank holds at an address: the one listed, or the free content of a location nothing has written (log 6). -/
def eepromByte (s : State) (b : Bank) (a : Nat) : Byte :=
  match memRead (bankAt s.banks b).mem a with
  | some v => v
  | none => Config.unwrittenByte b a

/-- The bank EE_DEVSEL names (R25, R63). -/
def State.selected (s : State) : Bank := controlBank s.blk.devsel

/-- The selected bank is there and free to answer: the reference device, EE_BANKS_PRESENT holds the bank, no write cycle keeps
it from answering (R74). -/
def State.ready (s : State) : Prop :=
  s.params.device = .reference ∧ controlAcked s.params s.banks s.blk.devsel = true

/-- Every bank waits for a start condition, and none holds bytes that no stop condition has closed: the bus between two
transactions (R76). -/
def State.busQuiet (s : State) : Prop :=
  ∀ b : Bank, (bankAt s.banks b).mode = .idle ∧ bankOpenLatch (bankAt s.banks b) = false

/-- The bytes a read of `n` bytes takes from a bank, from ascending addresses (R65, R77). -/
def eepromBytes (s : State) (b : Bank) (addr : Half) (n : Nat) : List Byte :=
  (List.range n).map (fun i => eepromByte s b ((addr.toNat + i) % 65536 % s.params.eeCapacity))

/-! ## Shapes of the bus sequences -/

/-- A poll acknowledged at once, then the transaction's own start and control byte, left out with EE_POLL_MERGED (R116). -/
def State.openingEvents (s : State) : List BusEvent :=
  [.start, .write s.blk.devsel .ack] ++ if s.params.pollMerged then [] else [.start, .write s.blk.devsel .ack]

/-- How many primitives that is. -/
def State.openingSteps (s : State) : Nat := if s.params.pollMerged then 2 else 4

/-- The two address bytes, high byte first (R64, R116). -/
def addressEvents (addr : Half) : List BusEvent := [.write (addrHi addr) .ack, .write (addrLo addr) .ack]

/-- The bytes of a read: all but the last acknowledged (R116, R132). -/
def dataReads : List Byte → List BusEvent
  | [] => []
  | [d] => [.read d .nack]
  | d :: e :: rest => .read d .ack :: dataReads (e :: rest)

/-- A read of the bytes `ds` at `addr` with every answer an ACK (R116). -/
def State.readEvents (s : State) (addr : Half) (ds : List Byte) : List BusEvent :=
  s.openingEvents ++ addressEvents addr ++ [.start, .write (readCode s.blk.devsel) .ack] ++ dataReads ds ++ [.stop]

/-- A page write of the bytes `ds` at `addr` with every answer an ACK (R116). -/
def State.writeEvents (s : State) (addr : Half) (ds : List Byte) : List BusEvent :=
  s.openingEvents ++ addressEvents addr ++ ds.map (fun d => .write d .ack) ++ [.stop]

/-- `k` turns of a poll that is not acknowledged: `S W(CW,NACK)` each (R131). -/
def State.pollEvents (s : State) (k : Nat) : List BusEvent :=
  (List.replicate k [.start, .write s.blk.devsel .nack]).flatten

/-- EEWRBLK from an idle block to its end, a bank ready: in one page write, or in two, between which `p` primitives of the second one's
poll fall before the commit of the first (R153, R154). -/
def eewrblkRun (addr : Half) (len : BitVec 7) (p : Nat) (s : State) : Result :=
  let n := pageChunk addr len
  if len.toNat ≤ n then execTimes (s.openingSteps + 4 + n) (.eewrblk addr len) s
  else
    match execTimes (s.openingSteps + 4 + n + p) (.eewrblk addr len) s with
    | .next u => execTimes (s.openingSteps + 3 + (len.toNat - n) - p % 2) (.eewrblk addr len) (commitStep s.selected u)
    | .fault r => .fault r
    | .refused r => .refused r

/-! ## Coherent states -/

/-- The legal select codes, "the only values it ever holds" (R25). -/
def legalSelect (c : Byte) : Prop := c = 0xA0 ∨ c = 0xA2 ∨ c = 0xA4 ∨ c = 0xA6

/-- The mode of the device addressed by a transaction that stands at a phase (R74, R75, R77); `reading` in EERDB and EERDBLK. -/
def modeAt (reading : Bool) : EePhase → DevMode
  | .tStart => .writeAddr0
  | .tAddrHi => .writeAddr0
  | .tAddrLo => .writeAddr1
  | .tRstart => .writeData
  | .tData => if reading then .read else .writeData
  | .tStop => if reading then .idle else .writeData
  | .idle => .idle
  | .pollStart => .idle
  | .pollCtrl => .idle
  | .tCtrlW => .idle
  | .tCtrlR => .idle

/-- OP is EERDB or EERDBLK. -/
def State.reading (s : State) : Bool := s.blk.op == 2 || s.blk.op == 3

/-- OP is EEWRB or EEWRBLK. -/
def State.writing (s : State) : Bool := s.blk.op == 4 || s.blk.op == 5

/-- A phase that awaits the answer to a control byte: the last symbol was a start condition (R74). -/
def controlPhase (p : EePhase) : Bool := p == .pollCtrl || p == .tCtrlW || p == .tCtrlR

/-- The memories in canonical form (20_memory.md R60, R73; 10_state.md R27): EE_BUF below 127, each bank and its latch below
EE_CAPACITY. -/
structure State.MemOk (s : State) : Prop where
  capacity : 0 < s.params.eeCapacity ∧ s.params.eeCapacity ≤ 65536
  buffer : memWf Config.eeMaxLen s.blk.buf = true
  banks : ∀ b : Bank, memWf s.params.eeCapacity (bankAt s.banks b).mem = true
  latches : ∀ b : Bank, ∀ c ∈ (bankAt s.banks b).latch, c.1 < s.params.eeCapacity

/-- The engines' positions (R28 to R31): at most one engine is out of IDLE and only while BUSY = 1, and each stands where its
operation's pseudocode has a step. -/
structure State.SeqOk (s : State) : Prop where
  named : s.blk.busy = true → s.blk.op ≠ 0
  eeOwner : s.blk.ee.phase ≠ .idle → s.blk.busy = true ∧ (s.reading = true ∨ s.writing = true)
  txOwner : s.blk.tx.phase ≠ .idle → s.blk.busy = true ∧ s.blk.op = 6
  carrierOff : s.blk.tx.phase = .idle → s.blk.tx.irTxEn = false
  byteRead : s.blk.busy = true → s.blk.op = 2 → s.blk.ee.phase ≠ .idle
  blockRead : s.blk.busy = true → s.blk.op = 3 →
    (s.blk.ee.phase = .idle ↔ s.blk.ee.len = 0) ∧
    (s.blk.ee.phase = .tData → s.blk.ee.done.toNat < s.blk.ee.len.toNat) ∧
    (s.blk.ee.phase ≠ .tData → s.blk.ee.phase ≠ .tStop → s.blk.ee.done = 0)
  byteWrite : s.blk.busy = true → s.blk.op = 4 → s.blk.ee.phase ≠ .idle
  blockWrite : s.blk.busy = true → s.blk.op = 5 →
    (s.blk.ee.phase = .idle ↔ s.blk.ee.len = 0) ∧
    s.blk.ee.done.toNat + s.blk.ee.len.toNat ≤ Config.eeMaxLen ∧
    s.blk.ee.chunk.toNat ≤ pageChunk s.blk.ee.addr s.blk.ee.len
  writePhase : s.blk.busy = true → s.writing = true →
    s.blk.ee.phase ≠ .tRstart ∧ s.blk.ee.phase ≠ .tCtrlR ∧
    (s.blk.ee.phase ≠ .idle → s.blk.ee.phase ≠ .pollStart → s.blk.ee.phase ≠ .tStop → s.blk.ee.chunk ≠ 0)
  transmit : s.blk.busy = true → s.blk.op = 6 →
    s.blk.tx.phase ≠ .idle ∧ s.blk.tx.rep.toNat < Config.txRepeats ∧
    (s.blk.tx.phase = .bitOn ∨ s.blk.tx.phase = .bitGap → s.blk.tx.bit.toNat < Config.frameBits)
  receive : s.blk.busy = true → s.blk.op = 7 → s.blk.rx.bitCnt.toNat < Config.frameBits

/-- The bus and the devices fit the phase (R74 to R77): after a start condition, and only there, a control byte comes; a bank is idle or where the
transaction has brought it; a bank in its write cycle is idle; data bytes stand in a latch only before their stop condition;
with an oracle for a device (R61) the banks take no part. -/
structure State.BusOk (s : State) : Prop where
  control : controlPhase s.blk.ee.phase = true ↔ s.blk.bus = .started
  modes : ∀ b : Bank, (bankAt s.banks b).mode = .idle ∨
    (bankAt s.banks b).mode = modeAt s.reading s.blk.ee.phase
  cycles : ∀ b : Bank, (bankAt s.banks b).busy = true → (bankAt s.banks b).mode = .idle
  latches : ∀ b : Bank, bankOpenLatch (bankAt s.banks b) = true →
    (bankAt s.banks b).mode = .writeData ∧ (s.blk.ee.phase = .tData ∨ s.blk.ee.phase = .tStop) ∧ s.writing = true
  oracle : s.params.device = .oracle → ∀ b : Bank,
    (bankAt s.banks b).mode = .idle ∧ bankOpenLatch (bankAt s.banks b) = false

/-- A coherent state: a legal bank selected, memories canonical, sequencers and devices where the rules put them. -/
structure State.Coherent (s : State) : Prop where
  select : legalSelect s.blk.devsel
  mem : s.MemOk
  seq : s.SeqOk
  bus : s.BusOk

end Sys2Proof.Machine
end

