-- ==== Sys2Proof/Certificates/Slice0/Obligations.lean ====
section
/-! DEFINITION. The statements for the provers, in the order of OBLIGATIONS.json. -/

open Sys2Proof Sys2Proof.Machine

/-! ## The command word -/

/-- Decoding the word of a well-formed command gives the command back, every operand at every value (30_encoding.md R100 to R107,
R110). -/
def Obligations.DecodeOfEncode : Prop := ∀ i : Instr, i.wellFormed = true → decode (encode i) = .ok i

/-- A word that decodes is the word of the command it decodes to, and stands in that command's row of R107. -/
def Obligations.DecodeIsExact : Prop :=
  ∀ (w : Word) (i : Instr), decode w = .ok i → encode i = w ∧ i.row ∈ opcodeTable ∧ i.row.isRowOf w = true

/-- The legal words are those that match a row of R107, at most one row matches, and every other word is refused under one of the two
names of R108. -/
def Obligations.LegalWordsAreTheRows : Prop :=
  (∀ w : Word, (∃ i, decode w = .ok i) ↔ ∃ r ∈ opcodeTable, r.isRowOf w = true) ∧
  (∀ (w : Word) (r q : OpRow), r ∈ opcodeTable → q ∈ opcodeTable → r.isRowOf w = true → q.isRowOf w = true → r = q) ∧
  (∀ w : Word, (∀ r ∈ opcodeTable, r.isRowOf w = false) →
    decode w = .error (.noSuchOpcode (w.extractLsb' 28 4)) ∨ decode w = .error (.mustBeZero (w.extractLsb' 28 4)))

/-- The worked encodings of R120. -/
def Obligations.WorkedEncodings : Prop :=
  decode 0x10000002 = .ok (.eesel 2) ∧ decode 0x10000004 = .ok (.eesel 4) ∧ decode 0x20001234 = .ok (.eerdb 0x1234) ∧
  decode 0x300E0000 = .ok (.eerdblk 0 14) ∧ decode 0x40AB007F = .ok (.eewrb 0x007F 0xAB) ∧
  decode 0x500E007A = .ok (.eewrblk 0x007A 14) ∧ decode 0x60000085 = .ok (.irtx 5 1) ∧ decode 0x70000000 = .ok .irrx ∧
  decode 0x00000000 = .error (.noSuchOpcode 0) ∧ decode 0x80000000 = .error (.noSuchOpcode 8) ∧
  decode 0x70000001 = .error (.mustBeZero 7) ∧ decode 0x30800000 = .error (.mustBeZero 3) ∧
  decode 0x60001000 = .error (.mustBeZero 6)

/-- Every operand is its field as it stands (R110): bank = w[7:0], addr = w[15:0], len = w[22:16], value = w[23:16],
command = w[6:0], address = w[11:7]; and STATUS.OP will hold bits 30:28 (R107). -/
def Obligations.OperandFields : Prop :=
  ∀ (w : Word) (i : Instr), decode w = .ok i → w.toNat / 2 ^ 28 = i.opcode.toNat ∧
    match i with
    | .eesel bank => bank.toNat = w.toNat % 2 ^ 8
    | .eerdb addr => addr.toNat = w.toNat % 2 ^ 16
    | .eerdblk addr len => addr.toNat = w.toNat % 2 ^ 16 ∧ len.toNat = w.toNat / 2 ^ 16 % 2 ^ 7
    | .eewrb addr value => addr.toNat = w.toNat % 2 ^ 16 ∧ value.toNat = w.toNat / 2 ^ 16 % 2 ^ 8
    | .eewrblk addr len => addr.toNat = w.toNat % 2 ^ 16 ∧ len.toNat = w.toNat / 2 ^ 16 % 2 ^ 7
    | .irtx command address => command.toNat = w.toNat % 2 ^ 7 ∧ address.toNat = w.toNat / 2 ^ 7 % 2 ^ 5
    | .irrx => True

/-! ## A step -/

/-- A STEP RUNS THE DECODED COMMAND. On the host's turn, where the block is idle and the next access is a write to CMD of a word
that decodes to `i`, the step is `exec i` (R100) at the state in which the access and the turn are used up, with a button event of
that step after it (the host's list and the turns: logs 2, 3). -/
def Obligations.StepRunsTheCommandWord : Prop :=
  ∀ (w : Word) (i : Instr) (btn : Bool) (rest : List HostAct) (later : List Slot) (s : State),
    s.env.agenda = ⟨.host, btn⟩ :: later → s.env.prog = .write 0 w :: rest → s.blk.busy = false → decode w = .ok i →
    step s = thenNext (exec i { s with env.prog := rest, env.agenda := later }) (withButton ⟨.host, btn⟩)

/-- On the engine's turn, while an operation is in progress, the step is `exec` of the command in progress (R266), with a button
event of that step after it; where no turn is prescribed and no write cycle is in progress, the turn is the engine's (log 2). -/
def Obligations.StepRunsTheEngine : Prop :=
  (∀ (i : Instr) (btn : Bool) (later : List Slot) (s : State),
    s.env.agenda = ⟨.engine, btn⟩ :: later → s.inProgress = some i →
    step s = thenNext (exec i { s with env.agenda := later }) (withButton ⟨.engine, btn⟩)) ∧
  (∀ (i : Instr) (s : State), s.env.agenda = [] → s.inProgress = some i → (∀ b : Bank, (bankAt s.banks b).busy = false) →
    step s = exec i s)

/-- The very next step after a word is placed runs the command it decodes to, at the state with no operation in progress (log 3). -/
def Obligations.PlacedWordRuns : Prop :=
  ∀ (w : Word) (i : Instr) (s : State), decode w = .ok i →
    step (s.withFetchWord 32 w.toNat) = exec i (if s.blk.busy then s.quiet else s)

/-- While BUSY = 1 a host write to CMD has no effect of any kind and a host write to EE_BUF is ignored (R230, R255); nor does `exec` of
a command whose operation is not the one in progress do anything (log 1). -/
def Obligations.BusyBlockTakesNothing : Prop :=
  ∀ s : State, s.blk.busy = true →
    (∀ w : Word, hostWrite 0 w s = .next s) ∧
    (∀ (n : Byte) (w : Word), 128 ≤ n.toNat → hostWrite n w s = .next s) ∧
    (∀ i : Instr, s.blk.op ≠ i.opcode → exec i s = .next s)

/-- `raise IllegalCommand` (R222): ILL <- 1 and nothing else; the acceptance of the next legal command clears it. -/
def Obligations.IllegalWordSetsIll : Prop :=
  (∀ (s : State) (w : Word), s.blk.busy = false → (∀ i, decode w ≠ .ok i) →
    hostWrite 0 w s = .next { s with blk.ill := true }) ∧
  (∀ (s : State) (w : Word) (i : Instr), s.blk.busy = false → decode w = .ok i →
    ∃ t, hostWrite 0 w s = .next t ∧ t.blk.ill = false ∧ t.blk.busy = true ∧ t.blk.op = i.opcode)

/-- A host read, register by register (R21): CMD, the reserved numbers 5 to 127 and 255 read 0, the others their register
zero-extended; the value stands on h_rdata (R35) and nothing else changes (R71). EE_BUF while BUSY = 0 reads the byte written there;
a byte nothing has written, and any byte while BUSY = 1, reads a fresh free value (U9, U10; log 4). A read in the host's list is one
step of the host (R266); the wait for BUSY = 0 reads STATUS at each of its steps and ends in the one that finds BUSY = 0
(R254, log 25). -/
def Obligations.HostReads : Prop :=
  ∀ s : State,
    hostRead 0 s = { s with env.rdata := 0 } ∧ hostRead 1 s = { s with env.rdata := s.statusWord.zeroExtend 32 } ∧
    hostRead 2 s = { s with env.rdata := s.blk.result.zeroExtend 32 } ∧
    hostRead 3 s = { s with env.rdata := s.blk.devsel.zeroExtend 32 } ∧
    hostRead 4 s = { s with env.rdata := s.btnWord.zeroExtend 32 } ∧
    (∀ n : Byte, 5 ≤ n.toNat ∧ n.toNat ≤ 127 ∨ n.toNat = 255 → hostRead n s = { s with env.rdata := 0 }) ∧
    (∀ (i : Nat) (v : Byte), i < 127 → s.blk.busy = false → memRead s.blk.buf i = some v →
      hostRead (BitVec.ofNat 8 (128 + i)) s = { s with env.rdata := v.zeroExtend 32 }) ∧
    (∀ i : Nat, i < 127 → s.blk.busy = true ∨ memRead s.blk.buf i = none →
      hostRead (BitVec.ofNat 8 (128 + i)) s =
        { s with env.rdata := (Config.freeByte s.env.draws).zeroExtend 32, env.draws := s.env.draws + 1 }) ∧
    (∀ (n : Byte) (rest : List HostAct), s.env.prog = .read n :: rest →
      hostStep s = .next (hostRead n { s with env.prog := rest })) ∧
    (∀ rest : List HostAct, s.env.prog = .awaitIdle :: rest →
      hostStep s = .next { s with
        env.rdata := s.statusWord.zeroExtend 32, env.prog := if s.blk.busy then s.env.prog else rest })

/-- A host write to a register other than CMD (R21): STATUS, RESULT, EE_DEVSEL and the reserved numbers ignore it; BTN clears
BTN_FLAG where bit 0 is 1 and ignores every other bit; EE_BUF[i] takes the low 8 bits while BUSY = 0, the other bytes of EE_BUF stay. -/
def Obligations.HostWrites : Prop :=
  ∀ (s : State) (w : Word),
    (∀ n : Byte, 1 ≤ n.toNat ∧ n.toNat ≤ 3 ∨ 5 ≤ n.toNat ∧ n.toNat ≤ 127 ∨ n.toNat = 255 → hostWrite n w s = .next s) ∧
    hostWrite 4 w s = .next { s with blk.btnFlag := s.blk.btnFlag && !w.getLsbD 0 } ∧
    (∀ i : Nat, i < 127 → s.blk.busy = false →
      ∃ m : Memory, hostWrite (BitVec.ofNat 8 (128 + i)) w s = .next { s with blk.buf := m } ∧
        ∀ j : Nat, memRead m j = if j = i then some (w.extractLsb' 0 8) else memRead s.blk.buf j)

/-- The STATUS word (R23) and the BTN word (R26), bit by bit. -/
def Obligations.StatusAndButtonWords : Prop :=
  ∀ s : State,
    (s.statusWord.getLsbD 0 = s.blk.busy ∧ s.statusWord.getLsbD 1 = s.blk.ill ∧ s.statusWord.extractLsb' 2 2 = 0#2 ∧
      s.statusWord.extractLsb' 4 3 = s.blk.op ∧ s.statusWord.getLsbD 7 = false) ∧
    (s.btnWord.getLsbD 0 = s.blk.btnFlag ∧ s.btnWord.extractLsb' 1 7 = s.blk.btnCount)

/-- While BUSY = 1 no access of the host disturbs the engine (R230, R255, R266): of the block at most BTN_FLAG changes, and only from set
to clear; the devices and the parameters stay. -/
def Obligations.HostCannotDisturbAnEngine : Prop :=
  ∀ s : State, s.blk.busy = true → ∃ t, hostStep s = .next t ∧
    (t.blk = s.blk ∨ t.blk = { s.blk with btnFlag := false }) ∧ t.banks = s.banks ∧ t.params = s.params ∧
    t.env.agenda = s.env.agenda

/-! ## The button, and reset -/

/-- A button event sets BTN_FLAG and changes nothing else (R225), and a set and a clear in one step leave it set (R26, R85, R227): a step
with the event, of any agent but reset, is the same step without it, and then the flag is set. That an event which falls into another
agent's step is applied after that step, so that a tick of IRRX does not see it yet, is log 23 (DEDUCED); that a reset edge is excepted is
log 24 (DESIGN CHOICE). -/
def Obligations.ButtonEventSetsTheFlag : Prop :=
  (∀ (a : Agent) (later : List Slot) (s : State), a ≠ .rst →
    step { s with env.agenda := ⟨a, true⟩ :: later } =
      thenNext (step { s with env.agenda := ⟨a, false⟩ :: later }) (fun t => { t with blk.btnFlag := true })) ∧
  (∀ (later : List Slot) (s : State), s.env.agenda = ⟨.idle, true⟩ :: later →
    step s = .next { s with blk.btnFlag := true, env.agenda := later })

/-- Who changes the button register (R26, R32): BTN_FLAG falls only by a tick of IRRX, a host write of 1 to bit 0 of BTN, or reset; and
BTN_COUNT changes only by a tick of IRRX that finds the flag set, or reset. -/
def Obligations.ButtonRegisterWriters : Prop :=
  ∀ s t : State, step s = .next t →
    (s.blk.btnFlag = true → t.blk.btnFlag = false →
      (nextSlot s).agent = .rst ∨
      ((nextSlot s).agent = .engine ∧ s.blk.busy = true ∧ s.blk.op = 7) ∨
      ((nextSlot s).agent = .host ∧ ∃ w rest, s.env.prog = .write 4 w :: rest ∧ w.getLsbD 0 = true)) ∧
    (t.blk.btnCount ≠ s.blk.btnCount →
      (nextSlot s).agent = .rst ∨
      ((nextSlot s).agent = .engine ∧ s.blk.busy = true ∧ s.blk.op = 7 ∧ s.blk.btnFlag = true))

/-- The values R37 gives the block at reset, register by register. -/
def Obligations.ResetValues : Prop :=
  State.reset.statusWord = 0x00 ∧ State.reset.blk.result = 0x0000 ∧ State.reset.blk.devsel = 0xA0 ∧
  State.reset.blk.btnFlag = false ∧ State.reset.blk.btnCount = 0 ∧
  State.reset.blk.tx.word = 0 ∧ State.reset.blk.tx.rep = 0 ∧ State.reset.blk.tx.bit = 0 ∧
  State.reset.blk.tx.phase = .idle ∧ State.reset.blk.tx.irTxEn = false ∧
  State.reset.blk.rx.pulse = 0 ∧ State.reset.blk.rx.bitCnt = 0 ∧ State.reset.blk.rx.value = 0 ∧ State.reset.blk.rx.hdr = false ∧
  State.reset.blk.ee.addr = 0 ∧ State.reset.blk.ee.len = 0 ∧ State.reset.blk.ee.done = 0 ∧ State.reset.blk.ee.chunk = 0 ∧
  State.reset.blk.ee.val = 0 ∧ State.reset.blk.ee.phase = .idle ∧
  State.reset.blk.bus = .released ∧ State.reset.blk.txTrace = [] ∧ State.reset.blk.busTrace = []

/-- A clock edge with rst = 1 (R250): whatever the block was doing it takes the values of R37; the EEPROM is not reset (R37): every bank
keeps its memory, and one that waits for a control byte keeps all its state, so that a write cycle in progress continues. The model's own
choices in it: an event in the step of the edge is lost (log 24, DESIGN CHOICE); in the middle of a transaction, where U11 asks for a
refusal, the edge takes effect as well, and a bank that then waits for a control byte is left as it is (log 15, DESIGN CHOICE); the value on h_rdata stays (log 18, DESIGN CHOICE). -/
def Obligations.ResetStep : Prop :=
  ∀ (btn : Bool) (later : List Slot) (s : State), s.env.agenda = ⟨.rst, btn⟩ :: later →
    ∃ t, step s = .next t ∧ t.blk = State.reset.blk ∧ t.params = s.params ∧ t.env.prog = s.env.prog ∧ t.env.agenda = later ∧
      t.env.rdata = s.env.rdata ∧
      ∀ b : Bank, (bankAt t.banks b).mem = (bankAt s.banks b).mem ∧
        ((bankAt s.banks b).mode = .idle → bankAt t.banks b = bankAt s.banks b)

/-! ## The whole machine -/

/-- The state right after reset is coherent. Of the block this rests on R37; of the devices (idle, nothing latched) and of the parameters
(EE_CAPACITY) it is the model's choice of what stands at State.reset, which R37 leaves unspecified (logs 6 and 7, DESIGN CHOICE). -/
def Obligations.ResetIsCoherent : Prop := State.reset.Coherent

/-- EVERY STEP KEEPS COHERENCE, of whatever agent: a legal bank stays selected (R25), the memories stay canonical, at most one engine is
out of IDLE and only while BUSY = 1 (R31), IR_TX_EN is 0 whenever TX_PHASE is IDLE (R28), each engine stands where its operation has a
step, and the devices stand where the transaction has brought them. -/
def Obligations.StepKeepsCoherence : Prop :=
  ∀ s t : State, s.Coherent → Sys2Proof.Machine.step s = .next t → t.Coherent

/-- NO STOP. From a coherent state no command and no step faults or is refused: the block has no trap (R228), and the cases the model
stops on are never reached (R76, logs 13, 14). -/
def Obligations.CoherentStatesRun : Prop :=
  ∀ s : State, s.Coherent → (∃ t, step s = .next t) ∧ ∀ i : Instr, ∃ t, exec i s = .next t

/-- What the acceptance of each command does (R23, R38): BUSY <- 1, ILL <- 0, OP <- the opcode, the sequencer registers of its
engine loaded, and nothing else. (EESEL's operand waits in a field of the model's own, log 8; where EE_PHASE and TX_PHASE stand
after acceptance is logs 10 and 12.) -/
def Obligations.AcceptanceLoads : Prop :=
  ∀ s : State, s.blk.busy = false →
    (∀ bank, exec (.eesel bank) s =
      .next { s with blk.busy := true, blk.ill := false, blk.op := 1, blk.ee.bank := bank }) ∧
    (∀ addr, exec (.eerdb addr) s =
      .next { s with blk := { s.blk with busy := true, ill := false, op := 2, ee := { s.blk.ee with
        addr := addr, len := 1, done := 0, chunk := 0, val := 0, phase := .pollStart } } }) ∧
    (∀ addr len, exec (.eerdblk addr len) s =
      .next { s with blk := { s.blk with busy := true, ill := false, op := 3, ee := { s.blk.ee with
        addr := addr, len := len, done := 0, chunk := 0, val := 0, phase := if len = 0 then .idle else .pollStart } } }) ∧
    (∀ addr value, exec (.eewrb addr value) s =
      .next { s with blk := { s.blk with busy := true, ill := false, op := 4, ee := { s.blk.ee with
        addr := addr, len := 1, done := 0, chunk := 0, val := value, phase := .pollStart } } }) ∧
    (∀ addr len, exec (.eewrblk addr len) s =
      .next { s with blk := { s.blk with busy := true, ill := false, op := 5, ee := { s.blk.ee with
        addr := addr, len := len, done := 0, chunk := 0, val := 0, phase := if len = 0 then .idle else .pollStart } } }) ∧
    (∀ command address, exec (.irtx command address) s =
      .next { s with
        blk.busy := true, blk.ill := false, blk.op := 6
        blk.tx := { word := address ++ command, rep := 0, bit := 0, phase := .hdrOn, irTxEn := false } }) ∧
    exec .irrx s =
      .next { s with blk.busy := true, blk.ill := false, blk.op := 7, blk.rx := { pulse := 0, bitCnt := 0, value := 0, hdr := false } }

/-- THE FRAME OF EVERY COMMAND, at every step of its life (R266's column of what an engine writes, R27, R38): only EESEL writes
EE_DEVSEL; only EERDBLK writes EE_BUF, and only the byte EE_DONE numbers; only IRTX writes the transmit sequencer and `tx_trace`; only
IRRX writes the receive sequencer and BTN; EESEL, IRTX and IRRX touch neither the bus nor the devices, and of the EEPROM sequencer
EESEL at most its operand; OP and ILL are written at acceptance alone (R23, R32); RESULT is written only where the operation ends; no
byte of the EEPROM changes; and no parameter, no access still to come and no turn still to come changes. -/
def Obligations.ExecFrame : Prop :=
  ∀ (i : Instr) (s t : State), exec i s = .next t →
    (s.blk.busy = true → t.blk.op = s.blk.op ∧ t.blk.ill = s.blk.ill) ∧
    (i.opcode ≠ 1 → t.blk.devsel = s.blk.devsel) ∧
    (i.opcode ≠ 3 → t.blk.buf = s.blk.buf) ∧
    (∀ a : Nat, a ≠ s.blk.ee.done.toNat → memRead t.blk.buf a = memRead s.blk.buf a) ∧
    (i.opcode ≠ 6 → t.blk.tx = s.blk.tx ∧ t.blk.txTrace = s.blk.txTrace) ∧
    (i.opcode ≠ 7 → t.blk.rx = s.blk.rx ∧ t.blk.btnFlag = s.blk.btnFlag ∧ t.blk.btnCount = s.blk.btnCount ∧
      t.env.irIn = s.env.irIn) ∧
    (i.opcode = 1 ∨ i.opcode = 6 ∨ i.opcode = 7 → t.blk.bus = s.blk.bus ∧ t.blk.busTrace = s.blk.busTrace ∧ t.banks = s.banks ∧
      t.env.ackIn = s.env.ackIn ∧ t.env.byteIn = s.env.byteIn ∧
      t.blk.ee = if i.opcode = 1 then { s.blk.ee with bank := t.blk.ee.bank } else s.blk.ee) ∧
    (t.blk.busy = true → t.blk.result = s.blk.result) ∧
    (∀ (b : Bank) (a : Nat), eepromByte t b a = eepromByte s b a) ∧
    t.params = s.params ∧ t.env.prog = s.env.prog ∧ t.env.agenda = s.env.agenda ∧ t.env.rdata = s.env.rdata

/-! ## EESEL -/

/-- EESEL (R130), from an idle block to its end, which is the step after its acceptance: a bank 0..3 is selected and its select code is
the result; any other selector gives the sentinel EE_INVALID_BANK (U22's parameter, 0x00FF by default as R130 writes it) and leaves
EE_DEVSEL. No bus activity, no flag. Where the sentinel is no select code, which U22 requires of it, the result tells the two cases
apart. (The operand waits in a field of the model's own, log 8.) -/
def Obligations.EeselSelects : Prop :=
  (∀ (bank : Byte) (s : State), s.blk.busy = false → ∃ u t, exec (.eesel bank) s = .next u ∧ exec (.eesel bank) u = .next t ∧
    t = { s with
      blk.busy := false, blk.ill := false, blk.op := 1, blk.ee.bank := bank
      blk.devsel := if bank.toNat ≤ 3 then BitVec.ofNat 8 (0xA0 + 2 * bank.toNat) else s.blk.devsel
      blk.result := if bank.toNat ≤ 3 then BitVec.ofNat 16 (0xA0 + 2 * bank.toNat)
        else s.params.eeInvalidBank.zeroExtend 16 } ∧
    (¬legalSelect s.params.eeInvalidBank → (legalSelect (t.blk.result.truncate 8) ↔ bank.toNat ≤ 3))) ∧
  State.reset.params.eeInvalidBank = 0xFF

/-- The control bytes (R63) and their layout (R114). -/
def Obligations.ControlBytes : Prop :=
  ∀ bank : Bank, let cw := selectCode (bank.zeroExtend 8); let cr := readCode cw
    cw = (0xA0 ||| (bank.zeroExtend 8 <<< 1) : Byte) ∧ legalSelect cw ∧ cr = cw + 1 ∧ cr = cw ||| 1 ∧
    (cr = 0xA1 ∨ cr = 0xA3 ∨ cr = 0xA5 ∨ cr = 0xA7) ∧
    cw.getLsbD 0 = false ∧ cr.getLsbD 0 = true ∧ cw.extractLsb' 1 2 = bank ∧ cr.extractLsb' 1 2 = bank ∧
    cw.getLsbD 3 = false ∧ cr.getLsbD 3 = false ∧ cw.extractLsb' 4 4 = 0b1010#4 ∧ cr.extractLsb' 4 4 = 0b1010#4 ∧
    deviceAddress cw = (0x50 ||| bank.zeroExtend 7 : BitVec 7) ∧ controlBank cw = bank ∧ controlBank cr = bank

/-! ## The read operations -/

/-- EERDB (R132, R133) with the bank ready, from an idle block to its end: the byte at `addr` (modulo EE_CAPACITY, R77) is the result, the
bus has carried the sequence of R116, with EE_POLL_MERGED or without, and nothing else of the block changes but the model's own field
in which the byte waited (log 9); no byte of the EEPROM changes, and the bus and the bank are free again. The byte of a location that
nothing has written is free (log 6). -/
def Obligations.EerdbReadsTheByte : Prop :=
  ∀ (addr : Half) (s : State), s.blk.busy = false → legalSelect s.blk.devsel → s.ready → s.busQuiet →
    ∃ t, execTimes (s.openingSteps + 7) (.eerdb addr) s = .next t ∧
      (let d := eepromByte s s.selected (addr.toNat % s.params.eeCapacity)
       t.blk = { s.blk with
          busy := false, ill := false, op := 2, result := d.zeroExtend 16,
          ee := { s.blk.ee with addr := addr, len := 1, done := 1, chunk := 0, val := 0, phase := .idle, rdByte := d },
          bus := .released, busTrace := s.blk.busTrace ++ s.readEvents addr [d] }) ∧
      (∀ (b : Bank) (a : Nat), eepromByte t b a = eepromByte s b a) ∧
      t.ready ∧ t.busQuiet ∧ t.env = s.env ∧ t.params = s.params

/-- EERDBLK (R132, R134) with the bank ready and len ≥ 1, from an idle block to its end: EE_BUF[i] is the byte at addr + i for i < len, the
rest of EE_BUF is as before, the result is len, and one transaction has carried it, however many pages it spans; nothing else of
the block changes and no byte of the EEPROM does. The byte of a location that nothing has written is free (log 6). A block of no
bytes is Obligations.EmptyBlock. -/
def Obligations.EerdblkFillsTheBuffer : Prop :=
  ∀ (addr : Half) (len : BitVec 7) (s : State), s.blk.busy = false → legalSelect s.blk.devsel → s.ready → s.busQuiet → len ≠ 0 →
    ∃ t, execTimes (s.openingSteps + 6 + len.toNat) (.eerdblk addr len) s = .next t ∧
      (let ds := eepromBytes s s.selected addr len.toNat
       t.blk = { s.blk with
          busy := false, ill := false, op := 3, result := len.zeroExtend 16, buf := t.blk.buf,
          ee := { s.blk.ee with addr := addr, len := len, done := len, chunk := 0, val := 0, phase := .idle },
          bus := .released, busTrace := s.blk.busTrace ++ s.readEvents addr ds } ∧
       ∀ i : Nat, memRead t.blk.buf i = if i < len.toNat then ds[i]? else memRead s.blk.buf i) ∧
      (∀ (b : Bank) (a : Nat), eepromByte t b a = eepromByte s b a) ∧
      t.ready ∧ t.busQuiet ∧ t.env = s.env ∧ t.params = s.params

/-- A block of no bytes (R134, R153, R266): the operation is its acceptance and one step that only executes `done(0)`; no bus activity. -/
def Obligations.EmptyBlock : Prop :=
  ∀ (addr : Half) (s : State), s.blk.busy = false →
    (∃ u t, exec (.eerdblk addr 0) s = .next u ∧ exec (.eerdblk addr 0) u = .next t ∧
      t = { s with blk := { s.blk with busy := false, ill := false, op := 3, result := 0, ee := { s.blk.ee with
        addr := addr, len := 0, done := 0, chunk := 0, val := 0, phase := .idle } } }) ∧
    (∃ u t, exec (.eewrblk addr 0) s = .next u ∧ exec (.eewrblk addr 0) u = .next t ∧
      t = { s with blk := { s.blk with busy := false, ill := false, op := 5, result := 0, ee := { s.blk.ee with
        addr := addr, len := 0, done := 0, chunk := 0, val := 0, phase := .idle } } })

/-- The last step of EERDB and of EERDBLK (R132 to R134), at any device: a stop condition, then `done` with the byte read, with the
number of bytes read. That EERDB's byte waits for this step in the model's own field rdByte is log 9, that its EE_DONE becomes 1 here is
log 11 (both DEDUCED). -/
def Obligations.ReadFinishes : Prop :=
  ∀ s : State, s.blk.busy = true → s.blk.ee.phase = .tStop →
    (s.blk.op = 2 → ∀ addr, ∃ t, exec (.eerdb addr) s = .next t ∧
      t.blk = { s.blk with
        busy := false, result := s.blk.ee.rdByte.zeroExtend 16, ee := { s.blk.ee with done := 1, phase := .idle },
        bus := .released, busTrace := s.blk.busTrace ++ [.stop] } ∧ t.env = s.env ∧ t.params = s.params) ∧
    (s.blk.op = 3 → ∀ addr len, ∃ t, exec (.eerdblk addr len) s = .next t ∧
      t.blk = { s.blk with
        busy := false, result := s.blk.ee.done.zeroExtend 16, ee := { s.blk.ee with phase := .idle },
        bus := .released, busTrace := s.blk.busTrace ++ [.stop] } ∧ t.env = s.env ∧ t.params = s.params)

/-- The poll (R131, R78): while the device does not acknowledge its control byte, every two steps of any of the four EEPROM operations put
`S W(CW,NACK)` on the bus, for as many turns as one likes; there is no bound and no timeout. Nothing else changes, but that EE_CHUNK of a
page write is loaded at POLL_START with the bytes of the chunk about to be written, 1 in EEWRB (log 11, DEDUCED). -/
def Obligations.PollWaits : Prop :=
  ∀ (i : Instr) (k : Nat) (s : State), i.opcode ≠ 1 → i.opcode ≠ 6 → i.opcode ≠ 7 →
    s.blk.busy = true → s.blk.op = i.opcode → s.blk.ee.phase = .pollStart → s.params.device = .reference →
    controlAcked s.params s.banks s.blk.devsel = false → s.busQuiet →
    execTimes (2 * k) i s = .next { s with blk := { s.blk with
      ee := { s.blk.ee with
        chunk :=
          if k = 0 then s.blk.ee.chunk
          else if i.opcode = 4 then 1
          else if i.opcode = 5 then BitVec.ofNat 7 (pageChunk s.blk.ee.addr s.blk.ee.len)
          else s.blk.ee.chunk }
      bus := if k = 0 then s.blk.bus else .opened
      busTrace := s.blk.busTrace ++ s.pollEvents k } }

/-- The address goes out high byte first, after the write-phase control byte (R64), in every EEPROM operation: the three steps from the
transaction's own control byte on (or, with EE_POLL_MERGED, from the poll's control byte where it is acknowledged) write the byte in
EE_DEVSEL, then `addr[15:8]`, then `addr[7:0]`. -/
def Obligations.AddressHighByteFirst : Prop :=
  ∀ (i : Instr) (s : State), i.opcode ≠ 1 → i.opcode ≠ 6 → i.opcode ≠ 7 →
    s.blk.busy = true → s.blk.op = i.opcode →
    s.blk.ee.phase = .tCtrlW ∨
      s.blk.ee.phase = .pollCtrl ∧ s.params.pollMerged = true ∧ (busWrite s.blk.devsel s).1 = .ack →
    ∃ t c a b, execTimes 3 i s = .next t ∧
      t.blk.busTrace = s.blk.busTrace ++
        [.write s.blk.devsel c, .write (BitVec.ofNat 8 (s.blk.ee.addr.toNat / 256)) a,
          .write (BitVec.ofNat 8 (s.blk.ee.addr.toNat % 256)) b]

/-! ## The write operations -/

/-- EEWRB (R150, R152, R155) with the bank ready, from an idle block to its end: the bus has carried one page write of the one byte, the
result is 1, the bank is in its write cycle and no byte of the EEPROM has changed yet; once the cycle has ended the byte stands at
`addr` (modulo EE_CAPACITY, R75) of the selected bank and every other byte of every bank is as before. -/
def Obligations.EewrbWritesTheByte : Prop :=
  ∀ (addr : Half) (value : Byte) (s : State), s.blk.busy = false → legalSelect s.blk.devsel → s.ready → s.busQuiet →
    ∃ t, execTimes (s.openingSteps + 5) (.eewrb addr value) s = .next t ∧
      t.blk = { s.blk with
        busy := false, ill := false, op := 4, result := 1,
        ee := { s.blk.ee with addr := addr, len := 1, done := 1, chunk := 0, val := value, phase := .idle },
        bus := .released, busTrace := s.blk.busTrace ++ s.writeEvents addr [value] } ∧
      (∀ (b : Bank) (a : Nat), eepromByte t b a = eepromByte s b a) ∧
      (bankAt t.banks s.selected).busy = true ∧ t.busQuiet ∧ t.env = s.env ∧ t.params = s.params ∧
      (commitStep s.selected t).ready ∧
      ∀ (b : Bank) (a : Nat), eepromByte (commitStep s.selected t) b a =
        if b = s.selected ∧ a = addr.toNat % s.params.eeCapacity then value else eepromByte s b a

/-- The chunk rule (R151): `pageBoundary = (addr | 127) + 1` is the first address of the next page, between 128 and 65536; the room left
in the page is `128 - addr[6:0]`; `chunk = min(len, pageBoundary - addr)` is at least 1 and at most len, and stays in the page. -/
def Obligations.ChunkRule : Prop :=
  ∀ (addr : Half) (len : BitVec 7), 1 ≤ len.toNat →
    pageBoundary addr = (addr.toNat ||| 127) + 1 ∧ pageBoundary addr % 128 = 0 ∧ 128 ≤ pageBoundary addr ∧
    pageBoundary addr ≤ 65536 ∧ addr.toNat < pageBoundary addr ∧ pageBoundary addr - addr.toNat = 128 - addr.toNat % 128 ∧
    pageChunk addr len = min len.toNat (pageBoundary addr - addr.toNat) ∧ 1 ≤ pageChunk addr len ∧
    pageChunk addr len ≤ len.toNat ∧ addr.toNat + pageChunk addr len ≤ pageBoundary addr

/-- At most two chunks, and two exactly where `addr[6:0] + len > 128` (R153, R154): then the first ends at the page's last byte, the
second begins at a multiple of 128 (modulo 2^16) and takes all that is left, and the lengths sum to len. -/
def Obligations.ChunkSequence : Prop :=
  ∀ (addr : Half) (len : BitVec 7), 1 ≤ len.toNat →
    let n := pageChunk addr len
    let addr' := addr + BitVec.ofNat 16 n
    let len' := len - BitVec.ofNat 7 n
    n + len'.toNat = len.toNat ∧ (len' = 0 ↔ addr.toNat % 128 + len.toNat ≤ 128) ∧
    (len' ≠ 0 → addr.toNat % 128 + n = 128 ∧ addr'.toNat % 128 = 0 ∧ addr'.toNat = (addr.toNat + n) % 65536 ∧
      pageChunk addr' len' = len'.toNat)

/-- EEWRBLK whose block stays in its page (R150, R153, R155), with the bank ready and len ≥ 1, from an idle block to its end: one page
write, the result len; once the write cycle has ended the bytes `ds` stand at addr .. addr + len - 1 and every other byte of every bank is
as before. `ds` is EE_BUF[0..len-1]; at an index that nothing has written since reset the byte is free (U10, log 4). -/
def Obligations.EewrblkWritesOnePage : Prop :=
  ∀ (addr : Half) (len : BitVec 7) (s : State), s.blk.busy = false → legalSelect s.blk.devsel → s.ready → s.busQuiet →
    len ≠ 0 → addr.toNat % 128 + len.toNat ≤ 128 → s.params.eeCapacity = 65536 →
    ∃ (t : State) (ds : List Byte), execTimes (s.openingSteps + 4 + len.toNat) (.eewrblk addr len) s = .next t ∧
      ds.length = len.toNat ∧ (∀ (i : Nat) (v : Byte), i < len.toNat → memRead s.blk.buf i = some v → ds[i]? = some v) ∧
      t.blk = { s.blk with
        busy := false, ill := false, op := 5, result := len.zeroExtend 16,
        ee := { s.blk.ee with addr := addr + len.zeroExtend 16, len := 0, done := len, chunk := 0, val := 0, phase := .idle },
        bus := .released, busTrace := s.blk.busTrace ++ s.writeEvents addr ds } ∧
      (bankAt t.banks s.selected).busy = true ∧ t.busQuiet ∧ t.params = s.params ∧
      ∀ (b : Bank) (a : Nat), eepromByte (commitStep s.selected t) b a =
        if b = s.selected ∧ addr.toNat ≤ a ∧ a < addr.toNat + len.toNat then ds.getD (a - addr.toNat) 0 else eepromByte s b a

/-- EEWRBLK across a page boundary (R153, R154, R155), with the bank ready: two page writes, the first of the room left in the page, the
second at the next multiple of 128 (modulo 2^16). The poll of the second turns NACK for as many primitives `m` as the first write
cycle lasts; once the second cycle has ended too, byte i of the block stands at (addr + i) mod 2^16 and every other byte of every
bank is as before; the result is len, and nothing else of the block changes. `ds` is EE_BUF[0..len-1], free at an index that nothing
has written (U10, log 4). -/
def Obligations.EewrblkWritesTwoPages : Prop :=
  ∀ (addr : Half) (len : BitVec 7) (m : Nat) (s : State),
    s.blk.busy = false → legalSelect s.blk.devsel → s.ready → s.busQuiet →
    128 < addr.toNat % 128 + len.toNat → s.params.eeCapacity = 65536 →
    let n := 128 - addr.toNat % 128
    ∃ (u t : State) (ds : List Byte), execTimes (s.openingSteps + 4 + n + m) (.eewrblk addr len) s = .next u ∧
      execTimes (s.openingSteps + 3 + (len.toNat - n) - m % 2) (.eewrblk addr len) (commitStep s.selected u) = .next t ∧
      u.blk.busy = true ∧ ds.length = len.toNat ∧
      (∀ (i : Nat) (v : Byte), i < len.toNat → memRead s.blk.buf i = some v → ds[i]? = some v) ∧
      u.blk.busTrace = s.blk.busTrace ++ s.writeEvents addr (ds.take n) ++ s.pollEvents (m / 2) ++
        (if m % 2 = 1 then [.start] else []) ∧
      t.blk = { s.blk with
        busy := false, ill := false, op := 5, result := len.zeroExtend 16,
        ee := { s.blk.ee with addr := addr + len.zeroExtend 16, len := 0, done := len, chunk := 0, val := 0, phase := .idle },
        bus := .released,
        busTrace := s.blk.busTrace ++ s.writeEvents addr (ds.take n) ++ s.pollEvents (m / 2) ++
          s.writeEvents (addr + BitVec.ofNat 16 n) (ds.drop n) } ∧
      (bankAt t.banks s.selected).busy = true ∧ t.busQuiet ∧ t.params = s.params ∧
      (∀ (b : Bank) (a : Nat), eepromByte (commitStep s.selected u) b a =
        if b = s.selected ∧ addr.toNat ≤ a ∧ a < addr.toNat + n then ds.getD (a - addr.toNat) 0 else eepromByte s b a) ∧
      (∀ (b : Bank) (a : Nat), eepromByte (commitStep s.selected t) b a =
        if b = s.selected ∧ a < 65536 ∧ (a + 65536 - addr.toNat) % 65536 < len.toNat
        then ds.getD ((a + 65536 - addr.toNat) % 65536) 0 else eepromByte s b a)

/-- The last step of EEWRB and of a chunk of EEWRBLK (R150, R152, R153), at any device: a stop condition; EEWRB is done with 1;
EEWRBLK advances EE_ADDR, EE_LEN and EE_DONE by the chunk, and is done with EE_DONE or goes to the poll of the next chunk. That these
registers, and EE_CHUNK of the next chunk, change in the step of the stop condition is read from R266 (log 11, DEDUCED). -/
def Obligations.WriteFinishes : Prop :=
  ∀ s : State, s.blk.busy = true → s.blk.ee.phase = .tStop →
    (s.blk.op = 4 → ∀ addr value, ∃ t, exec (.eewrb addr value) s = .next t ∧
      t.blk = { s.blk with
        busy := false, result := 1, ee := { s.blk.ee with done := 1, phase := .idle },
        bus := .released, busTrace := s.blk.busTrace ++ [.stop] } ∧ t.env = s.env ∧ t.params = s.params) ∧
    (s.blk.op = 5 → ∀ addr len, ∃ t, exec (.eewrblk addr len) s = .next t ∧
      (let e : EeSeq := s.blk.ee
        let n := pageChunk e.addr e.len
        let e' : EeSeq := { e with
          addr := e.addr + BitVec.ofNat 16 n, len := e.len - BitVec.ofNat 7 n, done := e.done + BitVec.ofNat 7 n }
        t.blk = { s.blk with
          busy := if e'.len = 0 then false else true,
          result := if e'.len = 0 then e'.done.zeroExtend 16 else s.blk.result,
          ee := if e'.len = 0 then { e' with phase := .idle }
            else { e' with chunk := BitVec.ofNat 7 (pageChunk e'.addr e'.len), phase := .pollStart },
          bus := .released, busTrace := s.blk.busTrace ++ [.stop] }) ∧ t.env = s.env ∧ t.params = s.params)

/-- READ AFTER WRITE of a byte (R81, R80): after EEWRB has completed, an EERDB of the same address in the same bank returns the byte
written, and an EERDBLK puts it wherever its block meets that address (modulo EE_CAPACITY), whatever the length of the write cycle:
however many primitives `m` of the read's poll fall before the device's commit. Other bytes read as before the write. -/
def Obligations.ReadAfterWrite : Prop :=
  ∀ (addr : Half) (value : Byte) (s : State), s.blk.busy = false → legalSelect s.blk.devsel → s.ready → s.busQuiet →
    ∃ t, execTimes (s.openingSteps + 5) (.eewrb addr value) s = .next t ∧ t.blk.busy = false ∧
      (∀ m : Nat, ∃ u w, execTimes (1 + m) (.eerdb addr) t = .next u ∧ u.blk.busy = true ∧
        execTimes (s.openingSteps + 6 - m % 2) (.eerdb addr) (commitStep s.selected u) = .next w ∧
        w.blk.busy = false ∧ w.blk.result = value.zeroExtend 16) ∧
      (∀ (from' : Half) (len : BitVec 7) (m : Nat), len ≠ 0 →
        ∃ u w, execTimes (1 + m) (.eerdblk from' len) t = .next u ∧ u.blk.busy = true ∧
          execTimes (s.openingSteps + 5 + len.toNat - m % 2) (.eerdblk from' len) (commitStep s.selected u) = .next w ∧
          w.blk.busy = false ∧ w.blk.result = len.zeroExtend 16 ∧
          ∀ j : Nat, j < len.toNat → memRead w.blk.buf j = some (
            if (from'.toNat + j) % 65536 % s.params.eeCapacity = addr.toNat % s.params.eeCapacity then value
            else eepromByte s s.selected ((from'.toNat + j) % 65536 % s.params.eeCapacity)))

/-- ANSWERS ARE IGNORED outside the poll (R135): with an open device, the primitive after a byte whose answer was ACK and after one whose
answer was NACK is the same, and so is every register of the block; the bus trace alone shows the difference. -/
def Obligations.AnswersAreIgnored : Prop :=
  ∀ (i : Instr) (a a' : Ack) (rest : List Ack) (s t t' : State), s.params.device = .oracle → s.blk.ee.phase ≠ .pollCtrl →
    exec i { s with env.ackIn := a :: rest } = .next t → exec i { s with env.ackIn := a' :: rest } = .next t' →
    t'.blk = { t.blk with busTrace := t'.blk.busTrace } ∧ t'.banks = t.banks

/-! ## The reference device -/

/-- The answer to a control byte (R74), banks independent (the default of U7's parameter): ACK where bits 7:4 are 0b1010, bit 3 is 0, the
bank has a device and is in no write cycle, and then that bank alone goes to write-addr0 or to read by bit 0; otherwise NACK and
nothing moves. -/
def Obligations.ControlAnswer : Prop :=
  ∀ (p : Params) (v : Vector BankDev 4) (c : Byte), p.sharedCycle = false →
    let b : Bank := c.extractLsb' 1 2
    let takes : Prop := c.extractLsb' 4 4 = 0b1010#4 ∧ c.getLsbD 3 = false ∧
      p.banksPresent[b.toNat]'b.isLt = true ∧ (bankAt v b).busy = false
    (takes → (devControl p c v).1 = .ack ∧
      (bankAt (devControl p c v).2 b) =
        { bankAt v b with mode := if c.getLsbD 0 = true then .read else .writeAddr0 } ∧
      ∀ b' : Bank, b' ≠ b → bankAt (devControl p c v).2 b' = bankAt v b') ∧
    (¬takes → devControl p c v = (.nack, v))

/-- Write mode (R75): the data bytes of a write transaction go to the latch at the pointer's place, and the pointer stays inside its page:
after `ds` it is `ds.length` further on, modulo 128. -/
def Obligations.PageWrap : Prop :=
  ∀ (capacity : Nat) (hi lo : Byte) (ds : List Byte) (d : BankDev), d.busy = false → d.mode = .writeAddr0 →
    let e := (hi :: lo :: ds).foldl (fun x b => bankOnByte capacity b x) d
    let page := (hi.toNat * 256 + lo.toNat) / 128 * 128
    e.mode = .writeData ∧ e.busy = false ∧ e.mem = d.mem ∧
    e.ptr.toNat = page + (lo.toNat % 128 + ds.length) % 128 ∧
    e.latch = ds.mapIdx (fun j b => ((page + (lo.toNat % 128 + j) % 128) % capacity, b))

/-- Stop and write cycle (R76). A stop condition starts the cycle exactly where bytes are latched. The commit step stores them in order, a
later pair to the same address winning, empties the latch and ends the cycle; every other byte stays, and a memory in canonical form
stays in it. -/
def Obligations.CommitStores : Prop :=
  ∀ d : BankDev,
    ((bankOnStop d).busy = true ↔ d.busy = true ∨ d.latch ≠ []) ∧ (bankOnStop d).mem = d.mem ∧ (bankOnStop d).mode = .idle ∧
    (d.busy = true → (bankCommit d).busy = false ∧ (bankCommit d).latch = [] ∧ (bankCommit d).ptr = d.ptr ∧
      (bankCommit d).mode = d.mode ∧
      (∀ a : Nat, memRead (bankCommit d).mem a =
        match d.latch.reverse.find? (fun c => c.1 == a) with
        | some c => some c.2
        | none => memRead d.mem a) ∧
      ∀ bound : Nat, memWf bound d.mem = true → (∀ c ∈ d.latch, c.1 < bound) → memWf bound (bankCommit d).mem = true)

/-- Read mode (R77): where one bank is in read mode, `BusRead(m)` gives the byte at its pointer modulo EE_CAPACITY, its pointer advances by one
modulo 2^16, it stays in read mode after ACK and waits after NACK, and every other bank stays; a location nothing has written gives a
content of its own that is free (U12, log 6), and reading changes no byte (R71). -/
def Obligations.ReadMode : Prop :=
  ∀ (b : Bank) (m : Ack) (s : State), s.params.device = .reference → (bankAt s.banks b).mode = .read →
    (∀ b' : Bank, b' ≠ b → (bankAt s.banks b').mode ≠ .read) →
    (busRead m s).1 = eepromByte s b ((bankAt s.banks b).ptr.toNat % s.params.eeCapacity) ∧
    bankAt (busRead m s).2.banks b = { bankAt s.banks b with
      ptr := (bankAt s.banks b).ptr + 1, mode := if m = .ack then .read else .idle } ∧
    (∀ b' : Bank, b' ≠ b → bankAt (busRead m s).2.banks b' = bankAt s.banks b') ∧
    (busRead m s).2.blk = { s.blk with
      busTrace := s.blk.busTrace ++ [.read (busRead m s).1 m], bus := .opened }

/-- ONLY A COMMIT STORES (R70, R76, R256): in a step of any other agent, and in a commit of another bank, no byte of a bank's EEPROM changes;
in the commit of a bank whose latch is in order only latched addresses do. -/
def Obligations.OnlyCommitStores : Prop :=
  ∀ s t : State, step s = .next t → ∀ b : Bank,
    ((nextSlot s).agent ≠ .commit b → ∀ a : Nat, eepromByte t b a = eepromByte s b a) ∧
    (∀ a : Nat, (∀ c ∈ (bankAt s.banks b).latch, c.1 ≠ a) → eepromByte t b a = eepromByte s b a)

/-! ## IR transmit -/

/-- The frame word (R113, R111): `(address << 7) | command`, bit k the bit at position k, and the two fields come back. -/
def Obligations.FrameWordBits : Prop :=
  ∀ (command : BitVec 7) (address : BitVec 5), let w := frameWord command address
    w.toNat = address.toNat * 128 + command.toNat ∧
    (∀ k : Nat, k < 7 → w.getLsbD k = command.getLsbD k) ∧ (∀ k : Nat, k < 5 → w.getLsbD (7 + k) = address.getLsbD k) ∧
    frameCommand w = command ∧ frameAddress w = address

/-- IRTX (R170 to R172, R115), from an idle block to its end: 81 steps, the last 80 of them one `Emit` each; three frames with an
inter-frame gap after the first two, the result 0, the carrier off, and nothing else changed. -/
def Obligations.IrtxTransmits : Prop :=
  ∀ (command : BitVec 7) (address : BitVec 5) (s : State), s.blk.busy = false →
    (transmitSegments (frameWord command address)).length = 80 ∧
    execTimes 81 (.irtx command address) s = .next { s with blk := { s.blk with
      busy := false, ill := false, op := 6, result := 0,
      tx := { word := frameWord command address, rep := 3, bit := 12, phase := .idle, irTxEn := false },
      txTrace := s.blk.txTrace ++ transmitSegments (frameWord command address) } }

/-- One `Emit` of IRTX (R170, R171), at a data bit and at the gap after the third frame's last bit, with which the operation ends (R172). -/
def Obligations.IrtxEmits : Prop :=
  ∀ (command : BitVec 7) (address : BitVec 5) (s : State), s.blk.busy = true → s.blk.op = 6 →
    (s.blk.tx.phase = .bitOn → exec (.irtx command address) s = .next { s with
      blk.tx.irTxEn := true, blk.tx.phase := .bitGap,
      blk.txTrace := s.blk.txTrace ++ [⟨true, if s.blk.tx.word.getLsbD s.blk.tx.bit.toNat then 1200 else 600⟩] }) ∧
    (s.blk.tx.phase = .bitGap → s.blk.tx.bit = 11 → s.blk.tx.rep = 2 → exec (.irtx command address) s = .next { s with
      blk.busy := false, blk.result := 0,
      blk.tx.irTxEn := false, blk.tx.phase := .idle, blk.tx.bit := 12, blk.tx.rep := 3,
      blk.txTrace := s.blk.txTrace ++ [⟨false, 600⟩] })

/-- The durations of R174: a frame lasts `17400 + 600 * ones(W)` microseconds, from 17400 to 24600; an operation three frames plus 90000,
from 142200 to 163800; from one header to the next 62400 to 69600. -/
def Obligations.TransmitDurations : Prop :=
  ∀ w : BitVec 12,
    duration (frameSegments w) =
      Config.tHdr + Config.tGap + 12 * (Config.tZero + Config.tGap) + ones w * (Config.tOne - Config.tZero) ∧
    duration (frameSegments w) = 17400 + 600 * ones w ∧ 17400 ≤ duration (frameSegments w) ∧
    duration (frameSegments w) ≤ 24600 ∧ ones 0x000#12 = 0 ∧ ones 0xFFF#12 = 12 ∧
    duration (transmitSegments w) = 3 * duration (frameSegments w) + 90000 ∧ 142200 ≤ duration (transmitSegments w) ∧
    duration (transmitSegments w) ≤ 163800 ∧
    transmitSegments w = (frameSegments w ++ [⟨false, 45000⟩]) ++ (frameSegments w ++ [⟨false, 45000⟩]) ++ frameSegments w ∧
    duration (frameSegments w ++ [⟨false, 45000⟩]) = duration (frameSegments w) + 45000 ∧
    62400 ≤ duration (frameSegments w) + 45000 ∧ duration (frameSegments w) + 45000 ≤ 69600

/-! ## IR receive -/

/-- Entry (R190): RX_PULSE, RX_BITCNT, RX_VALUE, RX_HDR <- 0; BTN_FLAG and BTN_COUNT are not touched, and a press that came before is honoured
at the first tick. -/
def Obligations.IrrxEntry : Prop :=
  ∀ s : State, s.blk.busy = false → ∃ t, exec .irrx s = .next t ∧
    t.blk.rx.pulse = 0 ∧ t.blk.rx.bitCnt = 0 ∧ t.blk.rx.value = 0 ∧ t.blk.rx.hdr = false ∧
    t.blk.btnFlag = s.blk.btnFlag ∧ t.blk.btnCount = s.blk.btnCount ∧
    (s.blk.btnFlag = true → ∃ u, exec .irrx t = .next u ∧ u.blk.busy = false ∧ u.blk.btnFlag = false)

/-- The button fallback (R192, with its update of BTN_COUNT; U4's unknown update is log 21): the tick ends the operation before it samples,
BTN_FLAG falls, BTN_COUNT counts modulo 128 and is the result, and nothing else changes, whatever had been received. -/
def Obligations.IrrxFallback : Prop :=
  ∀ s : State, s.blk.busy = true → s.blk.op = 7 → s.blk.btnFlag = true →
    (s.params.btnUpdate = .plusOne →
      exec .irrx s = .next { s with
        blk.busy := false, blk.btnFlag := false,
        blk.btnCount := BitVec.ofNat 7 ((s.blk.btnCount.toNat + 1) % 128),
        blk.result := BitVec.ofNat 16 ((s.blk.btnCount.toNat + 1) % 128) }) ∧
    (s.params.btnUpdate = .unknown →
      exec .irrx s = .next { s with
        blk.busy := false, blk.btnFlag := false,
        blk.btnCount := Config.btnUpdate s.blk.btnCount,
        blk.result := (Config.btnUpdate s.blk.btnCount).zeroExtend 16 })

/-- A tick whose sample is high counts the pulse, saturating at 65535 (R193); a tick whose sample is low while RX_PULSE = 0 changes nothing
(R194). `u` is the state once the sample is taken. -/
def Obligations.IrrxCountsTheLevel : Prop :=
  ∀ s u : State, s.blk.busy = true → s.blk.op = 7 → s.blk.btnFlag = false →
    (s.sampleIr = (true, u) →
      exec .irrx s = .next { u with blk.rx.pulse := BitVec.ofNat 16 (min (s.blk.rx.pulse.toNat + 1) 65535) } ∧ u.blk = s.blk) ∧
    (s.sampleIr = (false, u) → s.blk.rx.pulse = 0 → exec .irrx s = .next u ∧ u.blk = s.blk)

/-- A falling edge after a pulse of at least RX_HDR_MIN ticks (R194, R195): a header, which drops whatever bits had been accumulated. -/
def Obligations.IrrxHeader : Prop :=
  ∀ s u : State, s.blk.busy = true → s.blk.op = 7 → s.blk.btnFlag = false → s.sampleIr = (false, u) → s.blk.rx.pulse ≠ 0 →
    s.params.rxHdrMin ≤ s.blk.rx.pulse.toNat →
    exec .irrx s = .next { u with blk.rx := { pulse := 0, bitCnt := 0, value := 0, hdr := true } } ∧ u.blk = s.blk

/-- A falling edge after a shorter pulse (R194, R196, R197): before a header it is discarded; after one (or, with U3's parameter, log 21, without
one) it is a data bit, 1 from RX_ONE_MIN ticks on, which lands at RX_BITCNT; the twelfth ends the operation with the value. -/
def Obligations.IrrxBits : Prop :=
  ∀ s u : State, s.blk.busy = true → s.blk.op = 7 → s.blk.btnFlag = false → s.sampleIr = (false, u) → s.blk.rx.pulse ≠ 0 →
    s.blk.rx.pulse.toNat < s.params.rxHdrMin →
    u.blk = s.blk ∧
    (s.blk.rx.hdr = false → s.params.countBeforeHeader = false → exec .irrx s = .next { u with blk.rx.pulse := 0 }) ∧
    (s.blk.rx.hdr = true ∨ s.params.countBeforeHeader = true → s.blk.rx.bitCnt.toNat < 12 →
      ∃ value : BitVec 12,
        (∀ k : Nat, k < 12 → value.getLsbD k =
          if k = s.blk.rx.bitCnt.toNat then decide (s.params.rxOneMin ≤ s.blk.rx.pulse.toNat) else s.blk.rx.value.getLsbD k) ∧
        exec .irrx s = .next { u with
          blk.rx := { pulse := 0, bitCnt := s.blk.rx.bitCnt + 1, value := value, hdr := s.blk.rx.hdr },
          blk.result := if s.blk.rx.bitCnt = 11 then value.zeroExtend 16 else s.blk.result,
          blk.busy := if s.blk.rx.bitCnt = 11 then false else true })

/-- IRRX DECODES (R193 to R199), from an idle block to its end: a header pulse and any twelve shorter pulses, whatever their lengths and
whatever the gaps, give the value whose bit k says whether pulse k had RX_ONE_MIN ticks; the operation ends at the falling edge of the
twelfth, nothing is validated, and the samples after it are not read. -/
def Obligations.IrrxDecodesPulses : Prop :=
  ∀ (header : Nat × Nat) (bits : List (Nat × Nat)) (later : List Bool) (s : State),
    s.blk.busy = false → s.blk.btnFlag = false → bits.length = 12 →
    1 ≤ header.1 → s.params.rxHdrMin ≤ header.1 → s.params.rxHdrMin ≤ 65535 → 1 ≤ header.2 →
    (∀ p ∈ bits, 1 ≤ p.1 ∧ p.1 < s.params.rxHdrMin ∧ 1 ≤ p.2) →
    s.env.irIn = pulseTrain (header :: bits) ++ later →
    ∃ t, execTimes (1 + ticksToLastEdge (header :: bits)) .irrx s = .next t ∧ t.blk.busy = false ∧
      (∀ k : Nat, t.blk.result.getLsbD k = decide (s.params.rxOneMin ≤ (bits.map Prod.fst).getD k 0 ∧ k < 12)) ∧
      t.env.irIn.length + 1 = later.length + (bits.map Prod.snd).getD 11 0 ∧ t.blk.btnFlag = false ∧ t.blk.buf = s.blk.buf ∧
      t.blk.devsel = s.blk.devsel ∧ t.banks = s.banks

/-- THE ROUND TRIP (R203, its first case): for every command and address, every admissible tick and thresholds (R202) and every phase, IRRX
accepted while the input is low, `z` ticks before the samples of an IRTX trace begin, completes within its first frame with
`(address << 7) | command`. -/
def Obligations.IrRoundTrip : Prop :=
  ∀ (command : BitVec 7) (address : BitVec 5) (phase z n : Nat) (later : List Bool) (s : State),
    s.blk.busy = false → s.blk.btnFlag = false → s.params.countBeforeHeader = false → rxAdmissible s.params = true →
    phase < s.params.tRxTick →
    duration (frameSegments (frameWord command address)) ≤ n * s.params.tRxTick →
    s.env.irIn = List.replicate z false ++
      samples (transmitSegments (frameWord command address)) s.params.tRxTick phase n ++ later →
    ∃ k t, execTimes (1 + z + k) .irrx s = .next t ∧ k ≤ n ∧ t.blk.busy = false ∧
      t.blk.result = (frameWord command address).zeroExtend 16

/-! ## The calibration record, and the assembler -/

/-- The calibration record (R67, R68): 14 bytes, the seven fields by name at the offsets 0, 2, .. 12, low byte first where little-endian;
and reading the bytes back under the same order gives the record back. -/
def Obligations.CalibrationRoundTrip : Prop :=
  ∀ (littleEndian : Bool) (r : CalRecord),
    r.fields = [r.rotate90CW, r.rotate90CCW, r.rotateSlightCW, r.rotateSlightCCW, r.section1StartOffset, r.sensorToCenterOffset,
      r.betweenPointsDuration] ∧
    (r.bytes littleEndian).length = 14 ∧ calRecordOf littleEndian (r.bytes littleEndian) = some r ∧
    ∀ (j : Nat) (v : Half), r.fields[j]? = some v →
      (r.bytes true)[2 * j]? = some (v.extractLsb' 0 8) ∧ (r.bytes true)[2 * j + 1]? = some (v.extractLsb' 8 8) ∧
      (r.bytes false)[2 * j]? = some (v.extractLsb' 8 8) ∧ (r.bytes false)[2 * j + 1]? = some (v.extractLsb' 0 8)

/-- The assembler (R118, R119), all fourteen forms: a command statement in range is a write of its one word to CMD and then the wait for
BUSY = 0 (R254; that the wait is an entry of the host's list is log 25), an operand out of range is an error; the three directives are
single register accesses; and the four pseudo-instructions are the statements R119 expands them into, a 16-bit value low byte first. The
model's own choices: the ranges of the directives' operands and of EEWR16's value, which R118 does not give (log 28, DESIGN CHOICE), and
that EERD16 fetches its value by BUFR 0 and then BUFR 1 (log 29, DESIGN CHOICE). -/
def Obligations.AssemblerRanges : Prop :=
  (∀ n : Nat, assemble (.eesel n) =
    if n ≤ 255 then some [.write 0 (encode (.eesel (BitVec.ofNat 8 n))), .awaitIdle] else none) ∧
  (∀ a : Nat, assemble (.eerdb a) =
    if a ≤ 0xFFFF then some [.write 0 (encode (.eerdb (BitVec.ofNat 16 a))), .awaitIdle] else none) ∧
  (∀ a n : Nat, assemble (.eerdblk a n) = if a ≤ 0xFFFF ∧ n ≤ 127
    then some [.write 0 (encode (.eerdblk (BitVec.ofNat 16 a) (BitVec.ofNat 7 n))), .awaitIdle] else none) ∧
  (∀ a v : Nat, assemble (.eewrb a v) = if a ≤ 0xFFFF ∧ v ≤ 0xFF
    then some [.write 0 (encode (.eewrb (BitVec.ofNat 16 a) (BitVec.ofNat 8 v))), .awaitIdle] else none) ∧
  (∀ a n : Nat, assemble (.eewrblk a n) = if a ≤ 0xFFFF ∧ n ≤ 127
    then some [.write 0 (encode (.eewrblk (BitVec.ofNat 16 a) (BitVec.ofNat 7 n))), .awaitIdle] else none) ∧
  (∀ c a : Nat, assemble (.irtx c a) = if c ≤ 127 ∧ a ≤ 31
    then some [.write 0 (encode (.irtx (BitVec.ofNat 7 c) (BitVec.ofNat 5 a))), .awaitIdle] else none) ∧
  assemble .irrx = some [.write 0 (encode .irrx), .awaitIdle] ∧
  (∀ i v : Nat, assemble (.bufw i v) = if i < 127 ∧ v ≤ 0xFF
    then some [.write (BitVec.ofNat 8 (128 + i)) (BitVec.ofNat 32 v)] else none) ∧
  (∀ i : Nat, assemble (.bufr i) = if i < 127 then some [.read (BitVec.ofNat 8 (128 + i))] else none) ∧
  assemble .res = some [.read 2] ∧
  assembleAll [.calrd] = assembleAll [.eesel 0, .eerdblk 0 14] ∧
  assembleAll [.calwr] = assembleAll [.eesel 0, .eewrblk 0 14] ∧
  (∀ a v : Nat, assemble (.eewr16 a v) = if a ≤ 0xFFFF ∧ v ≤ 0xFFFF
    then assembleAll [.bufw 0 (v % 256), .bufw 1 (v / 256), .eewrblk a 2] else none) ∧
  (∀ a : Nat, assemble (.eerd16 a) =
    if a ≤ 0xFFFF then assembleAll [.eerdblk a 2, .bufr 0, .bufr 1] else none)

/-! ## The end of a run, and reading back a block -/

/-- The end of a run (R265; which write cycles are the list's is log 27): it is over exactly where no command of the list is still to be
written, BUSY = 0, and no bank is in a write cycle the list started, whatever other accesses the list still has; a list just handed to
the host has started none. From a coherent state an over run stays over at every step, and but for a reset its final state stands:
STATUS.OP, RESULT, EE_DEVSEL and the traces stay, and so does every byte of a bank that is in no write cycle. -/
def Obligations.EndOfRun : Prop :=
  (∀ s : State, s.runOver = true ↔
    (∀ n w, HostAct.write n w ∈ s.env.prog → n ≠ 0) ∧ s.blk.busy = false ∧
    ∀ b : Bank, ¬((bankAt s.banks b).busy = true ∧ (bankAt s.banks b).ours = true)) ∧
  (∀ (acts : List HostAct) (s : State), (s.loadList acts).env.prog = acts ∧ (s.loadList acts).blk = s.blk ∧
    ∀ b : Bank, bankAt (s.loadList acts).banks b = { bankAt s.banks b with ours := false }) ∧
  (∀ s t : State, s.Coherent → s.runOver = true → step s = .next t → t.runOver = true ∧
    ((nextSlot s).agent ≠ .rst → t.blk.op = s.blk.op ∧ t.blk.result = s.blk.result ∧ t.blk.devsel = s.blk.devsel ∧
      t.blk.txTrace = s.blk.txTrace ∧ t.blk.busTrace = s.blk.busTrace) ∧
    ∀ b : Bank, (bankAt s.banks b).busy = false → ∀ a : Nat, eepromByte t b a = eepromByte s b a)

/-- READ AFTER WRITE of a block (R81, R80, R155): after EEWRBLK has completed, in one page write or in two (with `p` primitives of the second
one's poll before the first commit), an EERDB of any address, and an EERDBLK of any block, in the same bank reads the bytes written,
whatever the length of the last write cycle: however many primitives `m` of the read's poll fall before the device's commit. Other
bytes read as before the write. `ds` is EE_BUF[0..len-1], free at an index that nothing has written (U10, log 4). -/
def Obligations.ReadAfterBlockWrite : Prop :=
  ∀ (addr : Half) (len : BitVec 7) (p : Nat) (s : State), s.blk.busy = false → legalSelect s.blk.devsel → s.ready → s.busQuiet →
    len ≠ 0 → s.params.eeCapacity = 65536 →
    ∃ (t : State) (ds : List Byte), eewrblkRun addr len p s = .next t ∧ t.blk.busy = false ∧ ds.length = len.toNat ∧
      (∀ (i : Nat) (v : Byte), i < len.toNat → memRead s.blk.buf i = some v → ds[i]? = some v) ∧
      let expected : Nat → Byte := fun a =>
        if (a + 65536 - addr.toNat) % 65536 < len.toNat then ds.getD ((a + 65536 - addr.toNat) % 65536) 0
        else eepromByte s s.selected a
      (∀ (from' : Half) (m : Nat), ∃ u w, execTimes (1 + m) (.eerdb from') t = .next u ∧ u.blk.busy = true ∧
        execTimes (s.openingSteps + 6 - m % 2) (.eerdb from') (commitStep s.selected u) = .next w ∧
        w.blk.busy = false ∧ w.blk.result = (expected from'.toNat).zeroExtend 16) ∧
      (∀ (from' : Half) (len' : BitVec 7) (m : Nat), len' ≠ 0 →
        ∃ u w, execTimes (1 + m) (.eerdblk from' len') t = .next u ∧ u.blk.busy = true ∧
          execTimes (s.openingSteps + 5 + len'.toNat - m % 2) (.eerdblk from' len') (commitStep s.selected u) = .next w ∧
          w.blk.busy = false ∧ w.blk.result = len'.zeroExtend 16 ∧
          ∀ j : Nat, j < len'.toNat → memRead w.blk.buf j = some (expected ((from'.toNat + j) % 65536)))
end

