-- ==== Sys2Proof/Laws/Memory.lean ====
section
/-! SUPPORT. The laws of memory: read after write, the other addresses, and the canonical form, which every memory operation
keeps. -/

namespace Sys2Proof.Machine

/-! ## Read after write -/

theorem memRead_memWrite_same (m : Memory) (a : Nat) (v : Byte) : memRead (memWrite m a v) a = some v := by
  induction m with
  | nil => simp [memWrite, memRead]
  | cons c rest ih =>
    obtain ⟨k, w⟩ := c
    simp only [memWrite]
    split
    · simp [memRead]
    · split
      · simp [memRead]
      · next h1 h2 => simp [memRead, ih, Ne.symm h2]

theorem memRead_memWrite_other (m : Memory) (a b : Nat) (v : Byte) (h : b ≠ a) :
    memRead (memWrite m a v) b = memRead m b := by
  induction m with
  | nil => simp [memWrite, memRead, Ne.symm h]
  | cons c rest ih =>
    obtain ⟨k, w⟩ := c
    simp only [memWrite]
    split
    · simp [memRead, Ne.symm h]
    · split
      · next h1 h2 => subst h2; simp [memRead, Ne.symm h]
      · simp [memRead, ih]

/-- What a byte reads as after a write, at every address. -/
theorem memRead_memWrite (m : Memory) (a b : Nat) (v : Byte) :
    memRead (memWrite m a v) b = if b = a then some v else memRead m b := by
  by_cases h : b = a
  · subst h; simp [memRead_memWrite_same]
  · simp [h, memRead_memWrite_other m a b v h]

/-- An address that no cell names reads as before. -/
theorem memRead_memWriteAll_other (cells : List Host.Cell) (m : Memory) (b : Nat) (h : ∀ c ∈ cells, c.1 ≠ b) :
    memRead (memWriteAll m cells) b = memRead m b := by
  induction cells generalizing m with
  | nil => rfl
  | cons c rest ih =>
    have hc := h c (by simp)
    have hr : ∀ d ∈ rest, d.1 ≠ b := fun d hd => h d (by simp [hd])
    show memRead (memWriteAll (memWrite m c.1 c.2) rest) b = _
    rw [ih _ hr, memRead_memWrite_other m c.1 b c.2 (Ne.symm hc)]

/-- Storing a list of cells in order ends with its last cell. -/
theorem memWriteAll_append (m : Memory) (cells : List Host.Cell) (c : Host.Cell) :
    memWriteAll m (cells ++ [c]) = memWrite (memWriteAll m cells) c.1 c.2 := by
  simp [memWriteAll, List.foldl_append]

/-! ## The canonical form -/

theorem memWf_nil (bound : Nat) : memWf bound [] = true := rfl

theorem memWf_cons (bound k : Nat) (w : Byte) (rest : Memory) :
    memWf bound ((k, w) :: rest) = true ↔ (∀ c ∈ rest, k < c.1) ∧ k < bound ∧ memWf bound rest = true := by
  simp only [memWf, List.map_cons, List.pairwise_cons, List.mem_map, List.all_cons, Bool.and_eq_true, decide_eq_true_eq,
    forall_exists_index, and_imp, forall_apply_eq_imp_iff₂]
  tauto

/-- Every address of a write is the one written or one that was listed. -/
theorem mem_memWrite {m : Memory} {a : Nat} {v : Byte} {c : Host.Cell} (h : c ∈ memWrite m a v) : c = (a, v) ∨ c ∈ m := by
  induction m with
  | nil => simpa [memWrite] using h
  | cons d rest ih =>
    obtain ⟨k, w⟩ := d
    simp only [memWrite] at h
    split at h
    · simpa using h
    · split at h
      · rcases List.mem_cons.1 h with h | h
        · exact .inl h
        · exact .inr (by simp [h])
      · rcases List.mem_cons.1 h with h | h
        · exact .inr (by simp [h])
        · rcases ih h with h | h
          · exact .inl h
          · exact .inr (by simp [h])

/-- A write below the bound keeps the canonical form. -/
theorem memWf_memWrite {bound : Nat} {m : Memory} (a : Nat) (v : Byte) (hm : memWf bound m = true) (ha : a < bound) :
    memWf bound (memWrite m a v) = true := by
  induction m with
  | nil => simp [memWrite, memWf_cons, memWf_nil, ha]
  | cons d rest ih =>
    obtain ⟨k, w⟩ := d
    obtain ⟨h1, h2, h3⟩ := (memWf_cons bound k w rest).1 hm
    simp only [memWrite]
    split
    · next h =>
      refine (memWf_cons ..).2 ⟨?_, ha, hm⟩
      intro c hc
      rcases List.mem_cons.1 hc with rfl | hc
      · exact h
      · exact Nat.lt_trans h (h1 c hc)
    · split
      · next h => subst h; exact (memWf_cons ..).2 ⟨h1, ha, h3⟩
      · next h h' =>
        refine (memWf_cons ..).2 ⟨?_, h2, ih h3⟩
        intro c hc
        rcases mem_memWrite hc with rfl | hc
        · show k < a
          omega
        · exact h1 c hc

/-- A commit of cells below the bound keeps the canonical form. -/
theorem memWf_memWriteAll {bound : Nat} (cells : List Host.Cell) {m : Memory} (hm : memWf bound m = true)
    (hc : ∀ c ∈ cells, c.1 < bound) : memWf bound (memWriteAll m cells) = true := by
  induction cells generalizing m with
  | nil => exact hm
  | cons c rest ih =>
    show memWf bound (memWriteAll (memWrite m c.1 c.2) rest) = true
    exact ih (memWf_memWrite c.1 c.2 hm (hc c (by simp))) (fun d hd => hc d (by simp [hd]))

/-- The memories right after reset are canonical. -/
theorem memWf_reset : memWf Config.eeMaxLen State.reset.blk.buf = true ∧
    ∀ b : Bank, memWf State.reset.params.eeCapacity (State.reset.banks[b.toNat]'b.isLt).mem = true :=
  ⟨rfl, by decide⟩

end Sys2Proof.Machine
end

