-- ==== Sys2Proof/Laws/State.lean ====
section
/-! SUPPORT. One lemma per field per named update of the state, each true by rfl, so that no proof unfolds an update. -/

namespace Sys2Proof.Machine

/-! ## State.setEe -/

@[simp] theorem setEe_busy (e : EeSeq) (s : State) : (State.setEe e s).blk.busy = s.blk.busy := rfl
@[simp] theorem setEe_ill (e : EeSeq) (s : State) : (State.setEe e s).blk.ill = s.blk.ill := rfl
@[simp] theorem setEe_op (e : EeSeq) (s : State) : (State.setEe e s).blk.op = s.blk.op := rfl
@[simp] theorem setEe_result (e : EeSeq) (s : State) : (State.setEe e s).blk.result = s.blk.result := rfl
@[simp] theorem setEe_devsel (e : EeSeq) (s : State) : (State.setEe e s).blk.devsel = s.blk.devsel := rfl
@[simp] theorem setEe_btnFlag (e : EeSeq) (s : State) : (State.setEe e s).blk.btnFlag = s.blk.btnFlag := rfl
@[simp] theorem setEe_btnCount (e : EeSeq) (s : State) : (State.setEe e s).blk.btnCount = s.blk.btnCount := rfl
@[simp] theorem setEe_buf (e : EeSeq) (s : State) : (State.setEe e s).blk.buf = s.blk.buf := rfl
@[simp] theorem setEe_tx (e : EeSeq) (s : State) : (State.setEe e s).blk.tx = s.blk.tx := rfl
@[simp] theorem setEe_rx (e : EeSeq) (s : State) : (State.setEe e s).blk.rx = s.blk.rx := rfl
@[simp] theorem setEe_ee (e : EeSeq) (s : State) : (State.setEe e s).blk.ee = e := rfl
@[simp] theorem setEe_bus (e : EeSeq) (s : State) : (State.setEe e s).blk.bus = s.blk.bus := rfl
@[simp] theorem setEe_txTrace (e : EeSeq) (s : State) : (State.setEe e s).blk.txTrace = s.blk.txTrace := rfl
@[simp] theorem setEe_busTrace (e : EeSeq) (s : State) : (State.setEe e s).blk.busTrace = s.blk.busTrace := rfl
@[simp] theorem setEe_banks (e : EeSeq) (s : State) : (State.setEe e s).banks = s.banks := rfl
@[simp] theorem setEe_env (e : EeSeq) (s : State) : (State.setEe e s).env = s.env := rfl
@[simp] theorem setEe_params (e : EeSeq) (s : State) : (State.setEe e s).params = s.params := rfl

/-! ## State.setPhase -/

@[simp] theorem setPhase_busy (p : EePhase) (s : State) : (State.setPhase p s).blk.busy = s.blk.busy := rfl
@[simp] theorem setPhase_ill (p : EePhase) (s : State) : (State.setPhase p s).blk.ill = s.blk.ill := rfl
@[simp] theorem setPhase_op (p : EePhase) (s : State) : (State.setPhase p s).blk.op = s.blk.op := rfl
@[simp] theorem setPhase_result (p : EePhase) (s : State) : (State.setPhase p s).blk.result = s.blk.result := rfl
@[simp] theorem setPhase_devsel (p : EePhase) (s : State) : (State.setPhase p s).blk.devsel = s.blk.devsel := rfl
@[simp] theorem setPhase_btnFlag (p : EePhase) (s : State) : (State.setPhase p s).blk.btnFlag = s.blk.btnFlag := rfl
@[simp] theorem setPhase_btnCount (p : EePhase) (s : State) : (State.setPhase p s).blk.btnCount = s.blk.btnCount := rfl
@[simp] theorem setPhase_buf (p : EePhase) (s : State) : (State.setPhase p s).blk.buf = s.blk.buf := rfl
@[simp] theorem setPhase_tx (p : EePhase) (s : State) : (State.setPhase p s).blk.tx = s.blk.tx := rfl
@[simp] theorem setPhase_rx (p : EePhase) (s : State) : (State.setPhase p s).blk.rx = s.blk.rx := rfl
@[simp] theorem setPhase_ee (p : EePhase) (s : State) : (State.setPhase p s).blk.ee = { s.blk.ee with phase := p } := rfl
@[simp] theorem setPhase_bus (p : EePhase) (s : State) : (State.setPhase p s).blk.bus = s.blk.bus := rfl
@[simp] theorem setPhase_txTrace (p : EePhase) (s : State) : (State.setPhase p s).blk.txTrace = s.blk.txTrace := rfl
@[simp] theorem setPhase_busTrace (p : EePhase) (s : State) : (State.setPhase p s).blk.busTrace = s.blk.busTrace := rfl
@[simp] theorem setPhase_banks (p : EePhase) (s : State) : (State.setPhase p s).banks = s.banks := rfl
@[simp] theorem setPhase_env (p : EePhase) (s : State) : (State.setPhase p s).env = s.env := rfl
@[simp] theorem setPhase_params (p : EePhase) (s : State) : (State.setPhase p s).params = s.params := rfl

/-! ## State.setTx -/

@[simp] theorem setTx_busy (t : TxSeq) (s : State) : (State.setTx t s).blk.busy = s.blk.busy := rfl
@[simp] theorem setTx_ill (t : TxSeq) (s : State) : (State.setTx t s).blk.ill = s.blk.ill := rfl
@[simp] theorem setTx_op (t : TxSeq) (s : State) : (State.setTx t s).blk.op = s.blk.op := rfl
@[simp] theorem setTx_result (t : TxSeq) (s : State) : (State.setTx t s).blk.result = s.blk.result := rfl
@[simp] theorem setTx_devsel (t : TxSeq) (s : State) : (State.setTx t s).blk.devsel = s.blk.devsel := rfl
@[simp] theorem setTx_btnFlag (t : TxSeq) (s : State) : (State.setTx t s).blk.btnFlag = s.blk.btnFlag := rfl
@[simp] theorem setTx_btnCount (t : TxSeq) (s : State) : (State.setTx t s).blk.btnCount = s.blk.btnCount := rfl
@[simp] theorem setTx_buf (t : TxSeq) (s : State) : (State.setTx t s).blk.buf = s.blk.buf := rfl
@[simp] theorem setTx_tx (t : TxSeq) (s : State) : (State.setTx t s).blk.tx = t := rfl
@[simp] theorem setTx_rx (t : TxSeq) (s : State) : (State.setTx t s).blk.rx = s.blk.rx := rfl
@[simp] theorem setTx_ee (t : TxSeq) (s : State) : (State.setTx t s).blk.ee = s.blk.ee := rfl
@[simp] theorem setTx_bus (t : TxSeq) (s : State) : (State.setTx t s).blk.bus = s.blk.bus := rfl
@[simp] theorem setTx_txTrace (t : TxSeq) (s : State) : (State.setTx t s).blk.txTrace = s.blk.txTrace := rfl
@[simp] theorem setTx_busTrace (t : TxSeq) (s : State) : (State.setTx t s).blk.busTrace = s.blk.busTrace := rfl
@[simp] theorem setTx_banks (t : TxSeq) (s : State) : (State.setTx t s).banks = s.banks := rfl
@[simp] theorem setTx_env (t : TxSeq) (s : State) : (State.setTx t s).env = s.env := rfl
@[simp] theorem setTx_params (t : TxSeq) (s : State) : (State.setTx t s).params = s.params := rfl

/-! ## State.setRx -/

@[simp] theorem setRx_busy (r : RxSeq) (s : State) : (State.setRx r s).blk.busy = s.blk.busy := rfl
@[simp] theorem setRx_ill (r : RxSeq) (s : State) : (State.setRx r s).blk.ill = s.blk.ill := rfl
@[simp] theorem setRx_op (r : RxSeq) (s : State) : (State.setRx r s).blk.op = s.blk.op := rfl
@[simp] theorem setRx_result (r : RxSeq) (s : State) : (State.setRx r s).blk.result = s.blk.result := rfl
@[simp] theorem setRx_devsel (r : RxSeq) (s : State) : (State.setRx r s).blk.devsel = s.blk.devsel := rfl
@[simp] theorem setRx_btnFlag (r : RxSeq) (s : State) : (State.setRx r s).blk.btnFlag = s.blk.btnFlag := rfl
@[simp] theorem setRx_btnCount (r : RxSeq) (s : State) : (State.setRx r s).blk.btnCount = s.blk.btnCount := rfl
@[simp] theorem setRx_buf (r : RxSeq) (s : State) : (State.setRx r s).blk.buf = s.blk.buf := rfl
@[simp] theorem setRx_tx (r : RxSeq) (s : State) : (State.setRx r s).blk.tx = s.blk.tx := rfl
@[simp] theorem setRx_rx (r : RxSeq) (s : State) : (State.setRx r s).blk.rx = r := rfl
@[simp] theorem setRx_ee (r : RxSeq) (s : State) : (State.setRx r s).blk.ee = s.blk.ee := rfl
@[simp] theorem setRx_bus (r : RxSeq) (s : State) : (State.setRx r s).blk.bus = s.blk.bus := rfl
@[simp] theorem setRx_txTrace (r : RxSeq) (s : State) : (State.setRx r s).blk.txTrace = s.blk.txTrace := rfl
@[simp] theorem setRx_busTrace (r : RxSeq) (s : State) : (State.setRx r s).blk.busTrace = s.blk.busTrace := rfl
@[simp] theorem setRx_banks (r : RxSeq) (s : State) : (State.setRx r s).banks = s.banks := rfl
@[simp] theorem setRx_env (r : RxSeq) (s : State) : (State.setRx r s).env = s.env := rfl
@[simp] theorem setRx_params (r : RxSeq) (s : State) : (State.setRx r s).params = s.params := rfl

/-! ## State.setBuf -/

@[simp] theorem setBuf_busy (m : Memory) (s : State) : (State.setBuf m s).blk.busy = s.blk.busy := rfl
@[simp] theorem setBuf_ill (m : Memory) (s : State) : (State.setBuf m s).blk.ill = s.blk.ill := rfl
@[simp] theorem setBuf_op (m : Memory) (s : State) : (State.setBuf m s).blk.op = s.blk.op := rfl
@[simp] theorem setBuf_result (m : Memory) (s : State) : (State.setBuf m s).blk.result = s.blk.result := rfl
@[simp] theorem setBuf_devsel (m : Memory) (s : State) : (State.setBuf m s).blk.devsel = s.blk.devsel := rfl
@[simp] theorem setBuf_btnFlag (m : Memory) (s : State) : (State.setBuf m s).blk.btnFlag = s.blk.btnFlag := rfl
@[simp] theorem setBuf_btnCount (m : Memory) (s : State) : (State.setBuf m s).blk.btnCount = s.blk.btnCount := rfl
@[simp] theorem setBuf_buf (m : Memory) (s : State) : (State.setBuf m s).blk.buf = m := rfl
@[simp] theorem setBuf_tx (m : Memory) (s : State) : (State.setBuf m s).blk.tx = s.blk.tx := rfl
@[simp] theorem setBuf_rx (m : Memory) (s : State) : (State.setBuf m s).blk.rx = s.blk.rx := rfl
@[simp] theorem setBuf_ee (m : Memory) (s : State) : (State.setBuf m s).blk.ee = s.blk.ee := rfl
@[simp] theorem setBuf_bus (m : Memory) (s : State) : (State.setBuf m s).blk.bus = s.blk.bus := rfl
@[simp] theorem setBuf_txTrace (m : Memory) (s : State) : (State.setBuf m s).blk.txTrace = s.blk.txTrace := rfl
@[simp] theorem setBuf_busTrace (m : Memory) (s : State) : (State.setBuf m s).blk.busTrace = s.blk.busTrace := rfl
@[simp] theorem setBuf_banks (m : Memory) (s : State) : (State.setBuf m s).banks = s.banks := rfl
@[simp] theorem setBuf_env (m : Memory) (s : State) : (State.setBuf m s).env = s.env := rfl
@[simp] theorem setBuf_params (m : Memory) (s : State) : (State.setBuf m s).params = s.params := rfl

/-! ## State.setDevsel -/

@[simp] theorem setDevsel_busy (v : Byte) (s : State) : (State.setDevsel v s).blk.busy = s.blk.busy := rfl
@[simp] theorem setDevsel_ill (v : Byte) (s : State) : (State.setDevsel v s).blk.ill = s.blk.ill := rfl
@[simp] theorem setDevsel_op (v : Byte) (s : State) : (State.setDevsel v s).blk.op = s.blk.op := rfl
@[simp] theorem setDevsel_result (v : Byte) (s : State) : (State.setDevsel v s).blk.result = s.blk.result := rfl
@[simp] theorem setDevsel_devsel (v : Byte) (s : State) : (State.setDevsel v s).blk.devsel = v := rfl
@[simp] theorem setDevsel_btnFlag (v : Byte) (s : State) : (State.setDevsel v s).blk.btnFlag = s.blk.btnFlag := rfl
@[simp] theorem setDevsel_btnCount (v : Byte) (s : State) : (State.setDevsel v s).blk.btnCount = s.blk.btnCount := rfl
@[simp] theorem setDevsel_buf (v : Byte) (s : State) : (State.setDevsel v s).blk.buf = s.blk.buf := rfl
@[simp] theorem setDevsel_tx (v : Byte) (s : State) : (State.setDevsel v s).blk.tx = s.blk.tx := rfl
@[simp] theorem setDevsel_rx (v : Byte) (s : State) : (State.setDevsel v s).blk.rx = s.blk.rx := rfl
@[simp] theorem setDevsel_ee (v : Byte) (s : State) : (State.setDevsel v s).blk.ee = s.blk.ee := rfl
@[simp] theorem setDevsel_bus (v : Byte) (s : State) : (State.setDevsel v s).blk.bus = s.blk.bus := rfl
@[simp] theorem setDevsel_txTrace (v : Byte) (s : State) : (State.setDevsel v s).blk.txTrace = s.blk.txTrace := rfl
@[simp] theorem setDevsel_busTrace (v : Byte) (s : State) : (State.setDevsel v s).blk.busTrace = s.blk.busTrace := rfl
@[simp] theorem setDevsel_banks (v : Byte) (s : State) : (State.setDevsel v s).banks = s.banks := rfl
@[simp] theorem setDevsel_env (v : Byte) (s : State) : (State.setDevsel v s).env = s.env := rfl
@[simp] theorem setDevsel_params (v : Byte) (s : State) : (State.setDevsel v s).params = s.params := rfl

/-! ## State.setBtn -/

@[simp] theorem setBtn_busy (f : Bool) (c : BitVec 7) (s : State) : (State.setBtn f c s).blk.busy = s.blk.busy := rfl
@[simp] theorem setBtn_ill (f : Bool) (c : BitVec 7) (s : State) : (State.setBtn f c s).blk.ill = s.blk.ill := rfl
@[simp] theorem setBtn_op (f : Bool) (c : BitVec 7) (s : State) : (State.setBtn f c s).blk.op = s.blk.op := rfl
@[simp] theorem setBtn_result (f : Bool) (c : BitVec 7) (s : State) : (State.setBtn f c s).blk.result = s.blk.result := rfl
@[simp] theorem setBtn_devsel (f : Bool) (c : BitVec 7) (s : State) : (State.setBtn f c s).blk.devsel = s.blk.devsel := rfl
@[simp] theorem setBtn_btnFlag (f : Bool) (c : BitVec 7) (s : State) : (State.setBtn f c s).blk.btnFlag = f := rfl
@[simp] theorem setBtn_btnCount (f : Bool) (c : BitVec 7) (s : State) : (State.setBtn f c s).blk.btnCount = c := rfl
@[simp] theorem setBtn_buf (f : Bool) (c : BitVec 7) (s : State) : (State.setBtn f c s).blk.buf = s.blk.buf := rfl
@[simp] theorem setBtn_tx (f : Bool) (c : BitVec 7) (s : State) : (State.setBtn f c s).blk.tx = s.blk.tx := rfl
@[simp] theorem setBtn_rx (f : Bool) (c : BitVec 7) (s : State) : (State.setBtn f c s).blk.rx = s.blk.rx := rfl
@[simp] theorem setBtn_ee (f : Bool) (c : BitVec 7) (s : State) : (State.setBtn f c s).blk.ee = s.blk.ee := rfl
@[simp] theorem setBtn_bus (f : Bool) (c : BitVec 7) (s : State) : (State.setBtn f c s).blk.bus = s.blk.bus := rfl
@[simp] theorem setBtn_txTrace (f : Bool) (c : BitVec 7) (s : State) : (State.setBtn f c s).blk.txTrace = s.blk.txTrace := rfl
@[simp] theorem setBtn_busTrace (f : Bool) (c : BitVec 7) (s : State) : (State.setBtn f c s).blk.busTrace = s.blk.busTrace := rfl
@[simp] theorem setBtn_banks (f : Bool) (c : BitVec 7) (s : State) : (State.setBtn f c s).banks = s.banks := rfl
@[simp] theorem setBtn_env (f : Bool) (c : BitVec 7) (s : State) : (State.setBtn f c s).env = s.env := rfl
@[simp] theorem setBtn_params (f : Bool) (c : BitVec 7) (s : State) : (State.setBtn f c s).params = s.params := rfl

/-! ## State.setBanks -/

@[simp] theorem setBanks_busy (v : Vector BankDev 4) (s : State) : (State.setBanks v s).blk.busy = s.blk.busy := rfl
@[simp] theorem setBanks_ill (v : Vector BankDev 4) (s : State) : (State.setBanks v s).blk.ill = s.blk.ill := rfl
@[simp] theorem setBanks_op (v : Vector BankDev 4) (s : State) : (State.setBanks v s).blk.op = s.blk.op := rfl
@[simp] theorem setBanks_result (v : Vector BankDev 4) (s : State) : (State.setBanks v s).blk.result = s.blk.result := rfl
@[simp] theorem setBanks_devsel (v : Vector BankDev 4) (s : State) : (State.setBanks v s).blk.devsel = s.blk.devsel := rfl
@[simp] theorem setBanks_btnFlag (v : Vector BankDev 4) (s : State) : (State.setBanks v s).blk.btnFlag = s.blk.btnFlag := rfl
@[simp] theorem setBanks_btnCount (v : Vector BankDev 4) (s : State) : (State.setBanks v s).blk.btnCount = s.blk.btnCount := rfl
@[simp] theorem setBanks_buf (v : Vector BankDev 4) (s : State) : (State.setBanks v s).blk.buf = s.blk.buf := rfl
@[simp] theorem setBanks_tx (v : Vector BankDev 4) (s : State) : (State.setBanks v s).blk.tx = s.blk.tx := rfl
@[simp] theorem setBanks_rx (v : Vector BankDev 4) (s : State) : (State.setBanks v s).blk.rx = s.blk.rx := rfl
@[simp] theorem setBanks_ee (v : Vector BankDev 4) (s : State) : (State.setBanks v s).blk.ee = s.blk.ee := rfl
@[simp] theorem setBanks_bus (v : Vector BankDev 4) (s : State) : (State.setBanks v s).blk.bus = s.blk.bus := rfl
@[simp] theorem setBanks_txTrace (v : Vector BankDev 4) (s : State) : (State.setBanks v s).blk.txTrace = s.blk.txTrace := rfl
@[simp] theorem setBanks_busTrace (v : Vector BankDev 4) (s : State) : (State.setBanks v s).blk.busTrace = s.blk.busTrace := rfl
@[simp] theorem setBanks_banks (v : Vector BankDev 4) (s : State) : (State.setBanks v s).banks = v := rfl
@[simp] theorem setBanks_env (v : Vector BankDev 4) (s : State) : (State.setBanks v s).env = s.env := rfl
@[simp] theorem setBanks_params (v : Vector BankDev 4) (s : State) : (State.setBanks v s).params = s.params := rfl

/-! ## State.logBus -/

@[simp] theorem logBus_busy (e : BusEvent) (b : BusState) (s : State) : (State.logBus e b s).blk.busy = s.blk.busy := rfl
@[simp] theorem logBus_ill (e : BusEvent) (b : BusState) (s : State) : (State.logBus e b s).blk.ill = s.blk.ill := rfl
@[simp] theorem logBus_op (e : BusEvent) (b : BusState) (s : State) : (State.logBus e b s).blk.op = s.blk.op := rfl
@[simp] theorem logBus_result (e : BusEvent) (b : BusState) (s : State) : (State.logBus e b s).blk.result = s.blk.result := rfl
@[simp] theorem logBus_devsel (e : BusEvent) (b : BusState) (s : State) : (State.logBus e b s).blk.devsel = s.blk.devsel := rfl
@[simp] theorem logBus_btnFlag (e : BusEvent) (b : BusState) (s : State) : (State.logBus e b s).blk.btnFlag = s.blk.btnFlag := rfl
@[simp] theorem logBus_btnCount (e : BusEvent) (b : BusState) (s : State) : (State.logBus e b s).blk.btnCount = s.blk.btnCount := rfl
@[simp] theorem logBus_buf (e : BusEvent) (b : BusState) (s : State) : (State.logBus e b s).blk.buf = s.blk.buf := rfl
@[simp] theorem logBus_tx (e : BusEvent) (b : BusState) (s : State) : (State.logBus e b s).blk.tx = s.blk.tx := rfl
@[simp] theorem logBus_rx (e : BusEvent) (b : BusState) (s : State) : (State.logBus e b s).blk.rx = s.blk.rx := rfl
@[simp] theorem logBus_ee (e : BusEvent) (b : BusState) (s : State) : (State.logBus e b s).blk.ee = s.blk.ee := rfl
@[simp] theorem logBus_bus (e : BusEvent) (b : BusState) (s : State) : (State.logBus e b s).blk.bus = b := rfl
@[simp] theorem logBus_txTrace (e : BusEvent) (b : BusState) (s : State) : (State.logBus e b s).blk.txTrace = s.blk.txTrace := rfl
@[simp] theorem logBus_busTrace (e : BusEvent) (b : BusState) (s : State) : (State.logBus e b s).blk.busTrace = s.blk.busTrace ++ [e] := rfl
@[simp] theorem logBus_banks (e : BusEvent) (b : BusState) (s : State) : (State.logBus e b s).banks = s.banks := rfl
@[simp] theorem logBus_env (e : BusEvent) (b : BusState) (s : State) : (State.logBus e b s).env = s.env := rfl
@[simp] theorem logBus_params (e : BusEvent) (b : BusState) (s : State) : (State.logBus e b s).params = s.params := rfl

/-! ## State.setEnv -/

@[simp] theorem setEnv_busy (e : Env) (s : State) : (State.setEnv e s).blk.busy = s.blk.busy := rfl
@[simp] theorem setEnv_ill (e : Env) (s : State) : (State.setEnv e s).blk.ill = s.blk.ill := rfl
@[simp] theorem setEnv_op (e : Env) (s : State) : (State.setEnv e s).blk.op = s.blk.op := rfl
@[simp] theorem setEnv_result (e : Env) (s : State) : (State.setEnv e s).blk.result = s.blk.result := rfl
@[simp] theorem setEnv_devsel (e : Env) (s : State) : (State.setEnv e s).blk.devsel = s.blk.devsel := rfl
@[simp] theorem setEnv_btnFlag (e : Env) (s : State) : (State.setEnv e s).blk.btnFlag = s.blk.btnFlag := rfl
@[simp] theorem setEnv_btnCount (e : Env) (s : State) : (State.setEnv e s).blk.btnCount = s.blk.btnCount := rfl
@[simp] theorem setEnv_buf (e : Env) (s : State) : (State.setEnv e s).blk.buf = s.blk.buf := rfl
@[simp] theorem setEnv_tx (e : Env) (s : State) : (State.setEnv e s).blk.tx = s.blk.tx := rfl
@[simp] theorem setEnv_rx (e : Env) (s : State) : (State.setEnv e s).blk.rx = s.blk.rx := rfl
@[simp] theorem setEnv_ee (e : Env) (s : State) : (State.setEnv e s).blk.ee = s.blk.ee := rfl
@[simp] theorem setEnv_bus (e : Env) (s : State) : (State.setEnv e s).blk.bus = s.blk.bus := rfl
@[simp] theorem setEnv_txTrace (e : Env) (s : State) : (State.setEnv e s).blk.txTrace = s.blk.txTrace := rfl
@[simp] theorem setEnv_busTrace (e : Env) (s : State) : (State.setEnv e s).blk.busTrace = s.blk.busTrace := rfl
@[simp] theorem setEnv_banks (e : Env) (s : State) : (State.setEnv e s).banks = s.banks := rfl
@[simp] theorem setEnv_env (e : Env) (s : State) : (State.setEnv e s).env = e := rfl
@[simp] theorem setEnv_params (e : Env) (s : State) : (State.setEnv e s).params = s.params := rfl

/-! ## State.bumpDraws -/

@[simp] theorem bumpDraws_busy (s : State) : (State.bumpDraws s).blk.busy = s.blk.busy := rfl
@[simp] theorem bumpDraws_ill (s : State) : (State.bumpDraws s).blk.ill = s.blk.ill := rfl
@[simp] theorem bumpDraws_op (s : State) : (State.bumpDraws s).blk.op = s.blk.op := rfl
@[simp] theorem bumpDraws_result (s : State) : (State.bumpDraws s).blk.result = s.blk.result := rfl
@[simp] theorem bumpDraws_devsel (s : State) : (State.bumpDraws s).blk.devsel = s.blk.devsel := rfl
@[simp] theorem bumpDraws_btnFlag (s : State) : (State.bumpDraws s).blk.btnFlag = s.blk.btnFlag := rfl
@[simp] theorem bumpDraws_btnCount (s : State) : (State.bumpDraws s).blk.btnCount = s.blk.btnCount := rfl
@[simp] theorem bumpDraws_buf (s : State) : (State.bumpDraws s).blk.buf = s.blk.buf := rfl
@[simp] theorem bumpDraws_tx (s : State) : (State.bumpDraws s).blk.tx = s.blk.tx := rfl
@[simp] theorem bumpDraws_rx (s : State) : (State.bumpDraws s).blk.rx = s.blk.rx := rfl
@[simp] theorem bumpDraws_ee (s : State) : (State.bumpDraws s).blk.ee = s.blk.ee := rfl
@[simp] theorem bumpDraws_bus (s : State) : (State.bumpDraws s).blk.bus = s.blk.bus := rfl
@[simp] theorem bumpDraws_txTrace (s : State) : (State.bumpDraws s).blk.txTrace = s.blk.txTrace := rfl
@[simp] theorem bumpDraws_busTrace (s : State) : (State.bumpDraws s).blk.busTrace = s.blk.busTrace := rfl
@[simp] theorem bumpDraws_banks (s : State) : (State.bumpDraws s).banks = s.banks := rfl
@[simp] theorem bumpDraws_env (s : State) : (State.bumpDraws s).env = { s.env with draws := s.env.draws + 1 } := rfl
@[simp] theorem bumpDraws_params (s : State) : (State.bumpDraws s).params = s.params := rfl

/-! ## State.accept -/

@[simp] theorem accept_busy (o : BitVec 3) (s : State) : (State.accept o s).blk.busy = true := rfl
@[simp] theorem accept_ill (o : BitVec 3) (s : State) : (State.accept o s).blk.ill = false := rfl
@[simp] theorem accept_op (o : BitVec 3) (s : State) : (State.accept o s).blk.op = o := rfl
@[simp] theorem accept_result (o : BitVec 3) (s : State) : (State.accept o s).blk.result = s.blk.result := rfl
@[simp] theorem accept_devsel (o : BitVec 3) (s : State) : (State.accept o s).blk.devsel = s.blk.devsel := rfl
@[simp] theorem accept_btnFlag (o : BitVec 3) (s : State) : (State.accept o s).blk.btnFlag = s.blk.btnFlag := rfl
@[simp] theorem accept_btnCount (o : BitVec 3) (s : State) : (State.accept o s).blk.btnCount = s.blk.btnCount := rfl
@[simp] theorem accept_buf (o : BitVec 3) (s : State) : (State.accept o s).blk.buf = s.blk.buf := rfl
@[simp] theorem accept_tx (o : BitVec 3) (s : State) : (State.accept o s).blk.tx = s.blk.tx := rfl
@[simp] theorem accept_rx (o : BitVec 3) (s : State) : (State.accept o s).blk.rx = s.blk.rx := rfl
@[simp] theorem accept_ee (o : BitVec 3) (s : State) : (State.accept o s).blk.ee = s.blk.ee := rfl
@[simp] theorem accept_bus (o : BitVec 3) (s : State) : (State.accept o s).blk.bus = s.blk.bus := rfl
@[simp] theorem accept_txTrace (o : BitVec 3) (s : State) : (State.accept o s).blk.txTrace = s.blk.txTrace := rfl
@[simp] theorem accept_busTrace (o : BitVec 3) (s : State) : (State.accept o s).blk.busTrace = s.blk.busTrace := rfl
@[simp] theorem accept_banks (o : BitVec 3) (s : State) : (State.accept o s).banks = s.banks := rfl
@[simp] theorem accept_env (o : BitVec 3) (s : State) : (State.accept o s).env = s.env := rfl
@[simp] theorem accept_params (o : BitVec 3) (s : State) : (State.accept o s).params = s.params := rfl

/-! ## State.done -/

@[simp] theorem done_busy (v : Half) (s : State) : (State.done v s).blk.busy = false := rfl
@[simp] theorem done_ill (v : Half) (s : State) : (State.done v s).blk.ill = s.blk.ill := rfl
@[simp] theorem done_op (v : Half) (s : State) : (State.done v s).blk.op = s.blk.op := rfl
@[simp] theorem done_result (v : Half) (s : State) : (State.done v s).blk.result = v := rfl
@[simp] theorem done_devsel (v : Half) (s : State) : (State.done v s).blk.devsel = s.blk.devsel := rfl
@[simp] theorem done_btnFlag (v : Half) (s : State) : (State.done v s).blk.btnFlag = s.blk.btnFlag := rfl
@[simp] theorem done_btnCount (v : Half) (s : State) : (State.done v s).blk.btnCount = s.blk.btnCount := rfl
@[simp] theorem done_buf (v : Half) (s : State) : (State.done v s).blk.buf = s.blk.buf := rfl
@[simp] theorem done_tx (v : Half) (s : State) : (State.done v s).blk.tx = s.blk.tx := rfl
@[simp] theorem done_rx (v : Half) (s : State) : (State.done v s).blk.rx = s.blk.rx := rfl
@[simp] theorem done_ee (v : Half) (s : State) : (State.done v s).blk.ee = s.blk.ee := rfl
@[simp] theorem done_bus (v : Half) (s : State) : (State.done v s).blk.bus = s.blk.bus := rfl
@[simp] theorem done_txTrace (v : Half) (s : State) : (State.done v s).blk.txTrace = s.blk.txTrace := rfl
@[simp] theorem done_busTrace (v : Half) (s : State) : (State.done v s).blk.busTrace = s.blk.busTrace := rfl
@[simp] theorem done_banks (v : Half) (s : State) : (State.done v s).banks = s.banks := rfl
@[simp] theorem done_env (v : Half) (s : State) : (State.done v s).env = s.env := rfl
@[simp] theorem done_params (v : Half) (s : State) : (State.done v s).params = s.params := rfl

/-! ## State.raiseIllegal -/

@[simp] theorem raiseIllegal_busy (s : State) : (State.raiseIllegal s).blk.busy = s.blk.busy := rfl
@[simp] theorem raiseIllegal_ill (s : State) : (State.raiseIllegal s).blk.ill = true := rfl
@[simp] theorem raiseIllegal_op (s : State) : (State.raiseIllegal s).blk.op = s.blk.op := rfl
@[simp] theorem raiseIllegal_result (s : State) : (State.raiseIllegal s).blk.result = s.blk.result := rfl
@[simp] theorem raiseIllegal_devsel (s : State) : (State.raiseIllegal s).blk.devsel = s.blk.devsel := rfl
@[simp] theorem raiseIllegal_btnFlag (s : State) : (State.raiseIllegal s).blk.btnFlag = s.blk.btnFlag := rfl
@[simp] theorem raiseIllegal_btnCount (s : State) : (State.raiseIllegal s).blk.btnCount = s.blk.btnCount := rfl
@[simp] theorem raiseIllegal_buf (s : State) : (State.raiseIllegal s).blk.buf = s.blk.buf := rfl
@[simp] theorem raiseIllegal_tx (s : State) : (State.raiseIllegal s).blk.tx = s.blk.tx := rfl
@[simp] theorem raiseIllegal_rx (s : State) : (State.raiseIllegal s).blk.rx = s.blk.rx := rfl
@[simp] theorem raiseIllegal_ee (s : State) : (State.raiseIllegal s).blk.ee = s.blk.ee := rfl
@[simp] theorem raiseIllegal_bus (s : State) : (State.raiseIllegal s).blk.bus = s.blk.bus := rfl
@[simp] theorem raiseIllegal_txTrace (s : State) : (State.raiseIllegal s).blk.txTrace = s.blk.txTrace := rfl
@[simp] theorem raiseIllegal_busTrace (s : State) : (State.raiseIllegal s).blk.busTrace = s.blk.busTrace := rfl
@[simp] theorem raiseIllegal_banks (s : State) : (State.raiseIllegal s).banks = s.banks := rfl
@[simp] theorem raiseIllegal_env (s : State) : (State.raiseIllegal s).env = s.env := rfl
@[simp] theorem raiseIllegal_params (s : State) : (State.raiseIllegal s).params = s.params := rfl

/-! ## State.loadEe -/

@[simp] theorem loadEe_busy (a : Half) (l : BitVec 7) (v : Byte) (p : EePhase) (s : State) : (State.loadEe a l v p s).blk.busy = s.blk.busy := rfl
@[simp] theorem loadEe_ill (a : Half) (l : BitVec 7) (v : Byte) (p : EePhase) (s : State) : (State.loadEe a l v p s).blk.ill = s.blk.ill := rfl
@[simp] theorem loadEe_op (a : Half) (l : BitVec 7) (v : Byte) (p : EePhase) (s : State) : (State.loadEe a l v p s).blk.op = s.blk.op := rfl
@[simp] theorem loadEe_result (a : Half) (l : BitVec 7) (v : Byte) (p : EePhase) (s : State) : (State.loadEe a l v p s).blk.result = s.blk.result := rfl
@[simp] theorem loadEe_devsel (a : Half) (l : BitVec 7) (v : Byte) (p : EePhase) (s : State) : (State.loadEe a l v p s).blk.devsel = s.blk.devsel := rfl
@[simp] theorem loadEe_btnFlag (a : Half) (l : BitVec 7) (v : Byte) (p : EePhase) (s : State) : (State.loadEe a l v p s).blk.btnFlag = s.blk.btnFlag := rfl
@[simp] theorem loadEe_btnCount (a : Half) (l : BitVec 7) (v : Byte) (p : EePhase) (s : State) : (State.loadEe a l v p s).blk.btnCount = s.blk.btnCount := rfl
@[simp] theorem loadEe_buf (a : Half) (l : BitVec 7) (v : Byte) (p : EePhase) (s : State) : (State.loadEe a l v p s).blk.buf = s.blk.buf := rfl
@[simp] theorem loadEe_tx (a : Half) (l : BitVec 7) (v : Byte) (p : EePhase) (s : State) : (State.loadEe a l v p s).blk.tx = s.blk.tx := rfl
@[simp] theorem loadEe_rx (a : Half) (l : BitVec 7) (v : Byte) (p : EePhase) (s : State) : (State.loadEe a l v p s).blk.rx = s.blk.rx := rfl
@[simp] theorem loadEe_ee (a : Half) (l : BitVec 7) (v : Byte) (p : EePhase) (s : State) : (State.loadEe a l v p s).blk.ee = { s.blk.ee with addr := a, len := l, val := v, done := 0, chunk := 0, phase := p } := rfl
@[simp] theorem loadEe_bus (a : Half) (l : BitVec 7) (v : Byte) (p : EePhase) (s : State) : (State.loadEe a l v p s).blk.bus = s.blk.bus := rfl
@[simp] theorem loadEe_txTrace (a : Half) (l : BitVec 7) (v : Byte) (p : EePhase) (s : State) : (State.loadEe a l v p s).blk.txTrace = s.blk.txTrace := rfl
@[simp] theorem loadEe_busTrace (a : Half) (l : BitVec 7) (v : Byte) (p : EePhase) (s : State) : (State.loadEe a l v p s).blk.busTrace = s.blk.busTrace := rfl
@[simp] theorem loadEe_banks (a : Half) (l : BitVec 7) (v : Byte) (p : EePhase) (s : State) : (State.loadEe a l v p s).banks = s.banks := rfl
@[simp] theorem loadEe_env (a : Half) (l : BitVec 7) (v : Byte) (p : EePhase) (s : State) : (State.loadEe a l v p s).env = s.env := rfl
@[simp] theorem loadEe_params (a : Half) (l : BitVec 7) (v : Byte) (p : EePhase) (s : State) : (State.loadEe a l v p s).params = s.params := rfl

/-! ## State.loadTx -/

@[simp] theorem loadTx_busy (c : BitVec 7) (a : BitVec 5) (s : State) : (State.loadTx c a s).blk.busy = s.blk.busy := rfl
@[simp] theorem loadTx_ill (c : BitVec 7) (a : BitVec 5) (s : State) : (State.loadTx c a s).blk.ill = s.blk.ill := rfl
@[simp] theorem loadTx_op (c : BitVec 7) (a : BitVec 5) (s : State) : (State.loadTx c a s).blk.op = s.blk.op := rfl
@[simp] theorem loadTx_result (c : BitVec 7) (a : BitVec 5) (s : State) : (State.loadTx c a s).blk.result = s.blk.result := rfl
@[simp] theorem loadTx_devsel (c : BitVec 7) (a : BitVec 5) (s : State) : (State.loadTx c a s).blk.devsel = s.blk.devsel := rfl
@[simp] theorem loadTx_btnFlag (c : BitVec 7) (a : BitVec 5) (s : State) : (State.loadTx c a s).blk.btnFlag = s.blk.btnFlag := rfl
@[simp] theorem loadTx_btnCount (c : BitVec 7) (a : BitVec 5) (s : State) : (State.loadTx c a s).blk.btnCount = s.blk.btnCount := rfl
@[simp] theorem loadTx_buf (c : BitVec 7) (a : BitVec 5) (s : State) : (State.loadTx c a s).blk.buf = s.blk.buf := rfl
@[simp] theorem loadTx_tx (c : BitVec 7) (a : BitVec 5) (s : State) : (State.loadTx c a s).blk.tx = ⟨frameWord c a, 0, 0, .hdrOn, false⟩ := rfl
@[simp] theorem loadTx_rx (c : BitVec 7) (a : BitVec 5) (s : State) : (State.loadTx c a s).blk.rx = s.blk.rx := rfl
@[simp] theorem loadTx_ee (c : BitVec 7) (a : BitVec 5) (s : State) : (State.loadTx c a s).blk.ee = s.blk.ee := rfl
@[simp] theorem loadTx_bus (c : BitVec 7) (a : BitVec 5) (s : State) : (State.loadTx c a s).blk.bus = s.blk.bus := rfl
@[simp] theorem loadTx_txTrace (c : BitVec 7) (a : BitVec 5) (s : State) : (State.loadTx c a s).blk.txTrace = s.blk.txTrace := rfl
@[simp] theorem loadTx_busTrace (c : BitVec 7) (a : BitVec 5) (s : State) : (State.loadTx c a s).blk.busTrace = s.blk.busTrace := rfl
@[simp] theorem loadTx_banks (c : BitVec 7) (a : BitVec 5) (s : State) : (State.loadTx c a s).banks = s.banks := rfl
@[simp] theorem loadTx_env (c : BitVec 7) (a : BitVec 5) (s : State) : (State.loadTx c a s).env = s.env := rfl
@[simp] theorem loadTx_params (c : BitVec 7) (a : BitVec 5) (s : State) : (State.loadTx c a s).params = s.params := rfl

/-! ## State.loadRx -/

@[simp] theorem loadRx_busy (s : State) : (State.loadRx s).blk.busy = s.blk.busy := rfl
@[simp] theorem loadRx_ill (s : State) : (State.loadRx s).blk.ill = s.blk.ill := rfl
@[simp] theorem loadRx_op (s : State) : (State.loadRx s).blk.op = s.blk.op := rfl
@[simp] theorem loadRx_result (s : State) : (State.loadRx s).blk.result = s.blk.result := rfl
@[simp] theorem loadRx_devsel (s : State) : (State.loadRx s).blk.devsel = s.blk.devsel := rfl
@[simp] theorem loadRx_btnFlag (s : State) : (State.loadRx s).blk.btnFlag = s.blk.btnFlag := rfl
@[simp] theorem loadRx_btnCount (s : State) : (State.loadRx s).blk.btnCount = s.blk.btnCount := rfl
@[simp] theorem loadRx_buf (s : State) : (State.loadRx s).blk.buf = s.blk.buf := rfl
@[simp] theorem loadRx_tx (s : State) : (State.loadRx s).blk.tx = s.blk.tx := rfl
@[simp] theorem loadRx_rx (s : State) : (State.loadRx s).blk.rx = ⟨0, 0, 0, false⟩ := rfl
@[simp] theorem loadRx_ee (s : State) : (State.loadRx s).blk.ee = s.blk.ee := rfl
@[simp] theorem loadRx_bus (s : State) : (State.loadRx s).blk.bus = s.blk.bus := rfl
@[simp] theorem loadRx_txTrace (s : State) : (State.loadRx s).blk.txTrace = s.blk.txTrace := rfl
@[simp] theorem loadRx_busTrace (s : State) : (State.loadRx s).blk.busTrace = s.blk.busTrace := rfl
@[simp] theorem loadRx_banks (s : State) : (State.loadRx s).banks = s.banks := rfl
@[simp] theorem loadRx_env (s : State) : (State.loadRx s).env = s.env := rfl
@[simp] theorem loadRx_params (s : State) : (State.loadRx s).params = s.params := rfl

/-! ## State.buttonEvent -/

@[simp] theorem buttonEvent_busy (s : State) : (State.buttonEvent s).blk.busy = s.blk.busy := rfl
@[simp] theorem buttonEvent_ill (s : State) : (State.buttonEvent s).blk.ill = s.blk.ill := rfl
@[simp] theorem buttonEvent_op (s : State) : (State.buttonEvent s).blk.op = s.blk.op := rfl
@[simp] theorem buttonEvent_result (s : State) : (State.buttonEvent s).blk.result = s.blk.result := rfl
@[simp] theorem buttonEvent_devsel (s : State) : (State.buttonEvent s).blk.devsel = s.blk.devsel := rfl
@[simp] theorem buttonEvent_btnFlag (s : State) : (State.buttonEvent s).blk.btnFlag = true := rfl
@[simp] theorem buttonEvent_btnCount (s : State) : (State.buttonEvent s).blk.btnCount = s.blk.btnCount := rfl
@[simp] theorem buttonEvent_buf (s : State) : (State.buttonEvent s).blk.buf = s.blk.buf := rfl
@[simp] theorem buttonEvent_tx (s : State) : (State.buttonEvent s).blk.tx = s.blk.tx := rfl
@[simp] theorem buttonEvent_rx (s : State) : (State.buttonEvent s).blk.rx = s.blk.rx := rfl
@[simp] theorem buttonEvent_ee (s : State) : (State.buttonEvent s).blk.ee = s.blk.ee := rfl
@[simp] theorem buttonEvent_bus (s : State) : (State.buttonEvent s).blk.bus = s.blk.bus := rfl
@[simp] theorem buttonEvent_txTrace (s : State) : (State.buttonEvent s).blk.txTrace = s.blk.txTrace := rfl
@[simp] theorem buttonEvent_busTrace (s : State) : (State.buttonEvent s).blk.busTrace = s.blk.busTrace := rfl
@[simp] theorem buttonEvent_banks (s : State) : (State.buttonEvent s).banks = s.banks := rfl
@[simp] theorem buttonEvent_env (s : State) : (State.buttonEvent s).env = s.env := rfl
@[simp] theorem buttonEvent_params (s : State) : (State.buttonEvent s).params = s.params := rfl

/-! ## Updates that leave the whole block -/

@[simp] theorem setEnv_blk (e : Env) (s : State) : (State.setEnv e s).blk = s.blk := rfl
@[simp] theorem setBanks_blk (v : Vector BankDev 4) (s : State) : (State.setBanks v s).blk = s.blk := rfl
@[simp] theorem bumpDraws_blk (s : State) : (State.bumpDraws s).blk = s.blk := rfl

/-! ## emit -/

@[simp] theorem emit_busy (l : Bool) (d : Nat) (s : State) : (emit l d s).blk.busy = s.blk.busy := rfl
@[simp] theorem emit_ill (l : Bool) (d : Nat) (s : State) : (emit l d s).blk.ill = s.blk.ill := rfl
@[simp] theorem emit_op (l : Bool) (d : Nat) (s : State) : (emit l d s).blk.op = s.blk.op := rfl
@[simp] theorem emit_result (l : Bool) (d : Nat) (s : State) : (emit l d s).blk.result = s.blk.result := rfl
@[simp] theorem emit_devsel (l : Bool) (d : Nat) (s : State) : (emit l d s).blk.devsel = s.blk.devsel := rfl
@[simp] theorem emit_btnFlag (l : Bool) (d : Nat) (s : State) : (emit l d s).blk.btnFlag = s.blk.btnFlag := rfl
@[simp] theorem emit_btnCount (l : Bool) (d : Nat) (s : State) : (emit l d s).blk.btnCount = s.blk.btnCount := rfl
@[simp] theorem emit_buf (l : Bool) (d : Nat) (s : State) : (emit l d s).blk.buf = s.blk.buf := rfl
@[simp] theorem emit_tx (l : Bool) (d : Nat) (s : State) : (emit l d s).blk.tx = { s.blk.tx with irTxEn := l } := rfl
@[simp] theorem emit_rx (l : Bool) (d : Nat) (s : State) : (emit l d s).blk.rx = s.blk.rx := rfl
@[simp] theorem emit_ee (l : Bool) (d : Nat) (s : State) : (emit l d s).blk.ee = s.blk.ee := rfl
@[simp] theorem emit_bus (l : Bool) (d : Nat) (s : State) : (emit l d s).blk.bus = s.blk.bus := rfl
@[simp] theorem emit_txTrace (l : Bool) (d : Nat) (s : State) : (emit l d s).blk.txTrace = s.blk.txTrace ++ [⟨l, d⟩] := rfl
@[simp] theorem emit_busTrace (l : Bool) (d : Nat) (s : State) : (emit l d s).blk.busTrace = s.blk.busTrace := rfl
@[simp] theorem emit_banks (l : Bool) (d : Nat) (s : State) : (emit l d s).banks = s.banks := rfl
@[simp] theorem emit_env (l : Bool) (d : Nat) (s : State) : (emit l d s).env = s.env := rfl
@[simp] theorem emit_params (l : Bool) (d : Nat) (s : State) : (emit l d s).params = s.params := rfl

end Sys2Proof.Machine
end

