-- ==== Sys2Proof/Laws/Inputs.lean ====
section
/-! SUPPORT. What drawing a free value, taking an input and reading or writing EE_BUF can do: the block's registers, the devices
and the parameters stay, only `env` counts. -/

namespace Sys2Proof.Machine

/-! ## Inputs and draws -/

/-- `SampleIr()` leaves all but what surrounds the block. -/
theorem sampleIr_spec (s : State) : ∃ e : Env, s.sampleIr.2 = s.setEnv e ∧ e.prog = s.env.prog ∧ e.agenda = s.env.agenda := by
  unfold State.sampleIr
  split
  · exact ⟨_, rfl, rfl, rfl⟩
  · exact ⟨_, rfl, rfl, rfl⟩

theorem drawByte_spec (s : State) : ∃ e : Env, s.drawByte.2 = s.setEnv e ∧ e.prog = s.env.prog ∧ e.agenda = s.env.agenda :=
  ⟨_, rfl, rfl, rfl⟩

theorem oracleAck_spec (s : State) : ∃ e : Env, s.oracleAck.2 = s.setEnv e ∧ e.prog = s.env.prog ∧ e.agenda = s.env.agenda := by
  unfold State.oracleAck
  split
  · exact ⟨_, rfl, rfl, rfl⟩
  · exact ⟨_, rfl, rfl, rfl⟩

theorem oracleByte_spec (s : State) : ∃ e : Env, s.oracleByte.2 = s.setEnv e ∧ e.prog = s.env.prog ∧ e.agenda = s.env.agenda := by
  unfold State.oracleByte
  split
  · exact ⟨_, rfl, rfl, rfl⟩
  · exact drawByte_spec s

theorem bufRead_spec (i : Nat) (s : State) :
    ∃ e : Env, (s.bufRead i).2 = s.setEnv e ∧ e.prog = s.env.prog ∧ e.agenda = s.env.agenda := by
  unfold State.bufRead
  split
  · exact ⟨s.env, rfl, rfl, rfl⟩
  · exact drawByte_spec s

@[simp] theorem sampleIr_blk (s : State) : s.sampleIr.2.blk = s.blk := by obtain ⟨e, h, _⟩ := sampleIr_spec s; rw [h]; rfl
@[simp] theorem sampleIr_banks (s : State) : s.sampleIr.2.banks = s.banks := by obtain ⟨e, h, _⟩ := sampleIr_spec s; rw [h]; rfl
@[simp] theorem sampleIr_params (s : State) : s.sampleIr.2.params = s.params := by obtain ⟨e, h, _⟩ := sampleIr_spec s; rw [h]; rfl
@[simp] theorem drawByte_blk (s : State) : s.drawByte.2.blk = s.blk := rfl
@[simp] theorem drawByte_banks (s : State) : s.drawByte.2.banks = s.banks := rfl
@[simp] theorem drawByte_params (s : State) : s.drawByte.2.params = s.params := rfl
@[simp] theorem oracleAck_blk (s : State) : s.oracleAck.2.blk = s.blk := by obtain ⟨e, h, _⟩ := oracleAck_spec s; rw [h]; rfl
@[simp] theorem oracleAck_banks (s : State) : s.oracleAck.2.banks = s.banks := by
  obtain ⟨e, h, _⟩ := oracleAck_spec s; rw [h]; rfl
@[simp] theorem oracleAck_params (s : State) : s.oracleAck.2.params = s.params := by
  obtain ⟨e, h, _⟩ := oracleAck_spec s; rw [h]; rfl
@[simp] theorem oracleByte_blk (s : State) : s.oracleByte.2.blk = s.blk := by obtain ⟨e, h, _⟩ := oracleByte_spec s; rw [h]; rfl
@[simp] theorem oracleByte_banks (s : State) : s.oracleByte.2.banks = s.banks := by
  obtain ⟨e, h, _⟩ := oracleByte_spec s; rw [h]; rfl
@[simp] theorem oracleByte_params (s : State) : s.oracleByte.2.params = s.params := by
  obtain ⟨e, h, _⟩ := oracleByte_spec s; rw [h]; rfl
@[simp] theorem bufRead_blk (i : Nat) (s : State) : (s.bufRead i).2.blk = s.blk := by
  obtain ⟨e, h, _⟩ := bufRead_spec i s; rw [h]; rfl
@[simp] theorem bufRead_banks (i : Nat) (s : State) : (s.bufRead i).2.banks = s.banks := by
  obtain ⟨e, h, _⟩ := bufRead_spec i s; rw [h]; rfl
@[simp] theorem bufRead_params (i : Nat) (s : State) : (s.bufRead i).2.params = s.params := by
  obtain ⟨e, h, _⟩ := bufRead_spec i s; rw [h]; rfl

/-- A byte of EE_BUF that is listed reads as it is, and nothing changes. -/
theorem bufRead_listed {i : Nat} {v : Byte} {s : State} (h : memRead s.blk.buf i = some v) : s.bufRead i = (v, s) := by
  simp [State.bufRead, h]

/-! ## Writing EE_BUF -/

/-- Writing EE_BUF writes EE_BUF alone. -/
theorem bufWrite_spec (i : Nat) (v : Byte) (s : State) : ∃ m : Memory, s.bufWrite i v = s.setBuf m ∧
    (i < Config.eeMaxLen → m = memWrite s.blk.buf i v) ∧ (Config.eeMaxLen ≤ i → m = s.blk.buf) := by
  unfold State.bufWrite
  split
  · next h => exact ⟨_, rfl, fun _ => rfl, fun h' => absurd h (by omega)⟩
  · next h => exact ⟨s.blk.buf, rfl, fun h' => absurd h' h, fun _ => rfl⟩

@[simp] theorem bufWrite_banks (i : Nat) (v : Byte) (s : State) : (s.bufWrite i v).banks = s.banks := by
  obtain ⟨m, h, _⟩ := bufWrite_spec i v s; rw [h]; rfl
@[simp] theorem bufWrite_params (i : Nat) (v : Byte) (s : State) : (s.bufWrite i v).params = s.params := by
  obtain ⟨m, h, _⟩ := bufWrite_spec i v s; rw [h]; rfl
@[simp] theorem bufWrite_env (i : Nat) (v : Byte) (s : State) : (s.bufWrite i v).env = s.env := by
  obtain ⟨m, h, _⟩ := bufWrite_spec i v s; rw [h]; rfl

/-! What writing EE_BUF leaves of the block: every other register. -/

@[simp] theorem bufWrite_busy (i : Nat) (v : Byte) (s : State) : (s.bufWrite i v).blk.busy = s.blk.busy := by
  obtain ⟨m, h, _⟩ := bufWrite_spec i v s; rw [h]; rfl
@[simp] theorem bufWrite_ill (i : Nat) (v : Byte) (s : State) : (s.bufWrite i v).blk.ill = s.blk.ill := by
  obtain ⟨m, h, _⟩ := bufWrite_spec i v s; rw [h]; rfl
@[simp] theorem bufWrite_op (i : Nat) (v : Byte) (s : State) : (s.bufWrite i v).blk.op = s.blk.op := by
  obtain ⟨m, h, _⟩ := bufWrite_spec i v s; rw [h]; rfl
@[simp] theorem bufWrite_result (i : Nat) (v : Byte) (s : State) : (s.bufWrite i v).blk.result = s.blk.result := by
  obtain ⟨m, h, _⟩ := bufWrite_spec i v s; rw [h]; rfl
@[simp] theorem bufWrite_devsel (i : Nat) (v : Byte) (s : State) : (s.bufWrite i v).blk.devsel = s.blk.devsel := by
  obtain ⟨m, h, _⟩ := bufWrite_spec i v s; rw [h]; rfl
@[simp] theorem bufWrite_btnFlag (i : Nat) (v : Byte) (s : State) : (s.bufWrite i v).blk.btnFlag = s.blk.btnFlag := by
  obtain ⟨m, h, _⟩ := bufWrite_spec i v s; rw [h]; rfl
@[simp] theorem bufWrite_btnCount (i : Nat) (v : Byte) (s : State) : (s.bufWrite i v).blk.btnCount = s.blk.btnCount := by
  obtain ⟨m, h, _⟩ := bufWrite_spec i v s; rw [h]; rfl
@[simp] theorem bufWrite_tx (i : Nat) (v : Byte) (s : State) : (s.bufWrite i v).blk.tx = s.blk.tx := by
  obtain ⟨m, h, _⟩ := bufWrite_spec i v s; rw [h]; rfl
@[simp] theorem bufWrite_rx (i : Nat) (v : Byte) (s : State) : (s.bufWrite i v).blk.rx = s.blk.rx := by
  obtain ⟨m, h, _⟩ := bufWrite_spec i v s; rw [h]; rfl
@[simp] theorem bufWrite_ee (i : Nat) (v : Byte) (s : State) : (s.bufWrite i v).blk.ee = s.blk.ee := by
  obtain ⟨m, h, _⟩ := bufWrite_spec i v s; rw [h]; rfl
@[simp] theorem bufWrite_bus (i : Nat) (v : Byte) (s : State) : (s.bufWrite i v).blk.bus = s.blk.bus := by
  obtain ⟨m, h, _⟩ := bufWrite_spec i v s; rw [h]; rfl
@[simp] theorem bufWrite_txTrace (i : Nat) (v : Byte) (s : State) : (s.bufWrite i v).blk.txTrace = s.blk.txTrace := by
  obtain ⟨m, h, _⟩ := bufWrite_spec i v s; rw [h]; rfl
@[simp] theorem bufWrite_busTrace (i : Nat) (v : Byte) (s : State) : (s.bufWrite i v).blk.busTrace = s.blk.busTrace := by
  obtain ⟨m, h, _⟩ := bufWrite_spec i v s; rw [h]; rfl

/-- EE_BUF stays canonical under a write. -/
theorem bufWrite_wf {i : Nat} {v : Byte} {s : State} (h : memWf Config.eeMaxLen s.blk.buf = true) :
    memWf Config.eeMaxLen (s.bufWrite i v).blk.buf = true := by
  unfold State.bufWrite
  split
  · next hi => exact memWf_memWrite i v h hi
  · exact h

end Sys2Proof.Machine
end

