-- ==== Sys2Proof/Laws/Bus.lean ====
section
/-! SUPPORT. What each bus primitive can do: one lemma per primitive for the block, one for the banks. -/

namespace Sys2Proof.Machine

/-! ## The four banks -/

/-- There are four banks. -/
theorem bank_cases (b : Bank) : b = 0 ∨ b = 1 ∨ b = 2 ∨ b = 3 := by revert b; decide

@[simp] theorem bankAt_mapBanks (v : Vector BankDev 4) (f : BankDev → BankDev) (b : Bank) :
    bankAt (mapBanks f v) b = f (bankAt v b) := by
  rcases bank_cases b with rfl | rfl | rfl | rfl <;> rfl

theorem anyBank_eq_false {v : Vector BankDev 4} {f : BankDev → Bool} :
    anyBank f v = false ↔ ∀ b : Bank, f (bankAt v b) = false := by
  simp only [anyBank, Bool.or_eq_false_iff]
  constructor
  · intro h b
    rcases bank_cases b with rfl | rfl | rfl | rfl
    · exact h.1.1.1
    · exact h.1.1.2
    · exact h.1.2
    · exact h.2
  · intro h
    exact ⟨⟨⟨h 0, h 1⟩, h 2⟩, h 3⟩

theorem anyBank_eq_true {v : Vector BankDev 4} {f : BankDev → Bool} :
    anyBank f v = true ↔ ∃ b : Bank, f (bankAt v b) = true := by
  rw [← not_iff_not, Bool.not_eq_true, anyBank_eq_false]
  simp

theorem bankAt_setBank (v : Vector BankDev 4) (b c : Bank) (d : BankDev) :
    bankAt (setBank v b d) c = if c = b then d else bankAt v c := by
  simp only [bankAt, setBank, Vector.getElem_set, BitVec.toNat_inj]
  by_cases h : c = b
  · simp [h]
  · simp [h, Ne.symm h]

@[simp] theorem bankAt_setBank_same (v : Vector BankDev 4) (b : Bank) (d : BankDev) : bankAt (setBank v b d) b = d := by
  simp [bankAt_setBank]

/-- Two device arrays with the same banks are the same. -/
theorem banks_ext {v w : Vector BankDev 4} (h : ∀ b : Bank, bankAt v b = bankAt w b) : v = w := by
  apply Vector.ext
  intro i hi
  have := h (BitVec.ofNat 2 i)
  have e : (BitVec.ofNat 2 i).toNat = i := by simp; omega
  simpa only [bankAt, e] using this

/-! ## The primitives on the block -/

@[simp] theorem busAnswer_blk (x : Byte) (s : State) : (busAnswer x s).2.blk = s.blk := by
  unfold busAnswer; split
  · simp
  · split <;> simp

@[simp] theorem busAnswer_params (x : Byte) (s : State) : (busAnswer x s).2.params = s.params := by
  unfold busAnswer; split
  · simp
  · split <;> simp

/-- `BusWrite(x)` appends its event and leaves the transaction open; nothing else of the block changes. -/
theorem busWrite_blk (x : Byte) (s : State) : (busWrite x s).2.blk =
    { s.blk with busTrace := s.blk.busTrace ++ [.write x (busWrite x s).1], bus := .opened } := by
  simp [busWrite, State.logBus]

@[simp] theorem busWrite_params (x : Byte) (s : State) : (busWrite x s).2.params = s.params := by simp [busWrite]

@[simp] theorem busDatum_blk (m : Ack) (s : State) : (busDatum m s).2.blk = s.blk := by
  unfold busDatum; split
  · simp
  · split <;> simp

@[simp] theorem busDatum_params (m : Ack) (s : State) : (busDatum m s).2.params = s.params := by
  unfold busDatum; split
  · simp
  · split <;> simp

/-- `BusRead(m)` appends its event and leaves the transaction open; nothing else of the block changes. -/
theorem busRead_blk (m : Ack) (s : State) : (busRead m s).2.blk =
    { s.blk with busTrace := s.blk.busTrace ++ [.read (busRead m s).1 m], bus := .opened } := by
  simp [busRead, State.logBus]

@[simp] theorem busRead_params (m : Ack) (s : State) : (busRead m s).2.params = s.params := by simp [busRead]

/-- `BusStop()` appends its event and releases the bus; nothing else of the block changes. -/
theorem busStop_blk (s : State) : (busStop s).blk = { s.blk with busTrace := s.blk.busTrace ++ [.stop], bus := .released } := by
  unfold busStop; split <;> rfl

@[simp] theorem busStop_params (s : State) : (busStop s).params = s.params := by unfold busStop; split <;> rfl

@[simp] theorem busStop_env (s : State) : (busStop s).env = s.env := by unfold busStop; split <;> rfl

/-- `BusStart()`: if it answers a next state, the event is appended, the wires stand at a start condition, every bank waits for
its control byte, and nothing else changes. -/
theorem busStart_next {s t : State} (h : busStart s = .next t) :
    t.blk = { s.blk with busTrace := s.blk.busTrace ++ [.start], bus := .started } ∧ t.env = s.env ∧ t.params = s.params ∧
    ∀ b : Bank, bankAt t.banks b = if s.params.device = .reference then bankOnStart (bankAt s.banks b) else bankAt s.banks b := by
  unfold busStart at h
  split at h
  · next hd => cases h; simp [hd, State.logBus]
  · next hd =>
    split at h
    · cases h
    · cases h; simp [hd, State.logBus, State.setBanks]

/-- `BusStart()` answers a next state where no bank holds an open latch. -/
theorem busStart_completes {s : State} (h : ∀ b : Bank, bankOpenLatch (bankAt s.banks b) = false) :
    ∃ t, busStart s = .next t := by
  unfold busStart
  split
  · exact ⟨_, rfl⟩
  · simp [anyBank_eq_false.2 h]

/-- `BusStart()` never faults. -/
theorem busStart_no_fault (s : State) (r : Fault) : busStart s ≠ .fault r := by
  unfold busStart
  split
  · simp
  · split <;> simp

/-! ## The primitives on the banks -/

/-- A byte of the master, seen by one bank: nothing (an oracle, or a control byte that is not this bank's or not acknowledged),
the control byte that calls this bank, or a byte of the open transaction. -/
theorem busWrite_bank (x : Byte) (s : State) (b : Bank) :
    (bankAt (busWrite x s).2.banks b = bankAt s.banks b ∧
      (s.params.device = .oracle ∨ s.blk.bus = .started ∧ ¬(b = controlBank x ∧ controlAcked s.params s.banks x = true))) ∨
    (s.params.device = .reference ∧ s.blk.bus = .started ∧ controlAcked s.params s.banks x = true ∧ b = controlBank x ∧
      bankAt (busWrite x s).2.banks b = { bankAt s.banks b with mode := if x.getLsbD 0 then .read else .writeAddr0 }) ∨
    (s.params.device = .reference ∧ s.blk.bus ≠ .started ∧
      bankAt (busWrite x s).2.banks b = bankOnByte s.params.eeCapacity x (bankAt s.banks b)) := by
  have hb : (busWrite x s).2.banks = (busAnswer x s).2.banks := rfl
  rw [hb]
  unfold busAnswer
  split
  · next hd => exact .inl ⟨by simp, .inl hd⟩
  · next hd =>
    split
    · next hs =>
      by_cases hc : controlAcked s.params s.banks x = true
      · by_cases hx : b = controlBank x
        · subst hx
          exact .inr (.inl ⟨hd, hs, hc, rfl, by simp [devControl, hc]⟩)
        · exact .inl ⟨by simp [devControl, hc, bankAt_setBank, hx], .inr ⟨hs, by simp [hx]⟩⟩
      · exact .inl ⟨by simp [devControl, hc], .inr ⟨hs, by simp [hc]⟩⟩
    · next hs => exact .inr (.inr ⟨hd, fun h => hs h, by simp [devByte]⟩)

/-- A read, seen by one bank: it advances where it drives the bus, and nothing else happens to it. -/
theorem busRead_bank (m : Ack) (s : State) (b : Bank) :
    bankAt (busRead m s).2.banks b = bankAt s.banks b ∨
    (s.params.device = .reference ∧ bankAt (busRead m s).2.banks b = bankAfterRead m (bankAt s.banks b)) := by
  have hb : (busRead m s).2.banks = (busDatum m s).2.banks := rfl
  rw [hb]
  unfold busDatum
  split
  · exact .inl (by simp)
  · next hd =>
    split
    · exact .inr ⟨hd, by simp⟩
    · exact .inl (by simp)

/-- A stop condition, seen by one bank. -/
theorem busStop_bank (s : State) (b : Bank) :
    bankAt (busStop s).banks b = if s.params.device = .reference then bankOnStop (bankAt s.banks b) else bankAt s.banks b := by
  unfold busStop
  split
  · next hd => simp [hd]
  · next hd => simp [hd]

/-- A bank that acknowledges a control byte is in no write cycle, and the reference device has it. -/
theorem controlAcked_bank {p : Params} {v : Vector BankDev 4} {c : Byte} (h : controlAcked p v c = true) :
    (bankAt v (controlBank c)).busy = false := by
  simp only [controlAcked, bankBusy, Bool.and_eq_true, Bool.not_eq_true', Bool.or_eq_false_iff] at h
  exact h.2.1

end Sys2Proof.Machine
end

