-- ==== Sys2Proof/Laws/Engine.lean ====
section
/-! SUPPORT. What the shared phases of an EEPROM transaction can do, one lemma per operation: a start phase, a byte phase, the answer to
the poll, a data byte, the end of an operation, the end of a chunk. -/

namespace Sys2Proof.Machine

/-! ## Outcomes -/

@[simp] theorem thenNext_next (t : State) (f : State → State) : thenNext (.next t) f = .next (f t) := rfl

/-- A composed step answers a next state only through one of its first half. -/
theorem thenNext_eq_next {o : Result} {f : State → State} {t : State} (h : thenNext o f = .next t) :
    ∃ u, o = .next u ∧ f u = t := by
  cases o with
  | next u => exact ⟨u, rfl, by simpa using h⟩
  | fault r => cases h
  | refused r => cases h

/-! ## Phases -/

/-- A start phase: the event, the wires at a start condition, EE_PHASE at `next`, and nothing else of the block. -/
theorem startPhase_next {next : EePhase} {s t : State} (h : startPhase next s = .next t) :
    t.blk = { s.blk with
      ee := { s.blk.ee with phase := next }, bus := .started, busTrace := s.blk.busTrace ++ [.start] } ∧
    t.env = s.env ∧ t.params = s.params ∧
    ∀ b : Bank, bankAt t.banks b = if s.params.device = .reference then bankOnStart (bankAt s.banks b) else bankAt s.banks b := by
  obtain ⟨u, hu, rfl⟩ := thenNext_eq_next h
  obtain ⟨hb, he, hp, hv⟩ := busStart_next hu
  exact ⟨by simp [State.setPhase, State.setEe, hb], he, hp, hv⟩

/-- A start phase answers a next state where no bank holds an open latch. -/
theorem startPhase_completes {next : EePhase} {s : State} (h : ∀ b : Bank, bankOpenLatch (bankAt s.banks b) = false) :
    ∃ t, startPhase next s = .next t := by
  obtain ⟨t, ht⟩ := busStart_completes h
  exact ⟨_, by rw [startPhase, ht]; rfl⟩

/-- A byte phase: the event with its answer, the transaction open, EE_PHASE at `next`, and nothing else of the block. -/
theorem bytePhase_blk (x : Byte) (next : EePhase) (s : State) : (bytePhase x next s).blk = { s.blk with
    ee := { s.blk.ee with phase := next }, bus := .opened
    busTrace := s.blk.busTrace ++ [.write x (busWrite x s).1] } := by
  simp [bytePhase, State.setPhase, State.setEe, busWrite_blk]

@[simp] theorem bytePhase_banks (x : Byte) (next : EePhase) (s : State) :
    (bytePhase x next s).banks = (busWrite x s).2.banks := rfl

@[simp] theorem bytePhase_params (x : Byte) (next : EePhase) (s : State) : (bytePhase x next s).params = s.params := by
  simp [bytePhase]

/-- Where the poll's answer sends the engine (R131, R132). -/
theorem pollCtrl_blk (s : State) : (pollCtrl s).blk = { s.blk with
    ee := { s.blk.ee with
      phase := if (busWrite s.blk.devsel s).1 = .ack then (if s.params.pollMerged then .tAddrHi else .tStart) else .pollStart }
    bus := .opened
    busTrace := s.blk.busTrace ++ [.write s.blk.devsel (busWrite s.blk.devsel s).1] } := by
  unfold pollCtrl
  cases h : (busWrite s.blk.devsel s).1 <;> simp [h, State.setPhase, State.setEe, busWrite_blk]

@[simp] theorem pollCtrl_banks (s : State) : (pollCtrl s).banks = (busWrite s.blk.devsel s).2.banks := by
  unfold pollCtrl; cases h : (busWrite s.blk.devsel s).1 <;> simp [h]

@[simp] theorem pollCtrl_params (s : State) : (pollCtrl s).params = s.params := by
  unfold pollCtrl; cases h : (busWrite s.blk.devsel s).1 <;> simp [h]

/-- A data byte of a page write: EE_CHUNK counts down, and after the last byte comes the stop (R150). -/
theorem writeDatum_blk (v : Byte) (s : State) : (writeDatum v s).blk = { s.blk with
    ee := { s.blk.ee with chunk := s.blk.ee.chunk - 1, phase := if s.blk.ee.chunk = 1 then .tStop else .tData }
    bus := .opened
    busTrace := s.blk.busTrace ++ [.write v (busWrite v s).1] } := by
  simp [writeDatum, State.setEe, busWrite_blk]

@[simp] theorem writeDatum_banks (v : Byte) (s : State) : (writeDatum v s).banks = (busWrite v s).2.banks := rfl

@[simp] theorem writeDatum_params (v : Byte) (s : State) : (writeDatum v s).params = s.params := by simp [writeDatum]

/-! ## Ends -/

/-- The end of an EEPROM operation: EE_DONE, EE_PHASE, RESULT and BUSY, and nothing else. -/
theorem eeDone_eq (count : BitVec 7) (v : Half) (s : State) : eeDone count v s = { s with blk := { s.blk with
    busy := false, result := v, ee := { s.blk.ee with done := count, phase := .idle } } } := rfl

/-- The end of a chunk of EEWRBLK with nothing left: the operation ends (R153). -/
theorem chunkDone_last {s : State} (h : s.blk.ee.len - BitVec.ofNat 7 (pageChunk s.blk.ee.addr s.blk.ee.len) = 0) :
    chunkDone s = { s with blk := { s.blk with
      busy := false
      result := (s.blk.ee.done + BitVec.ofNat 7 (pageChunk s.blk.ee.addr s.blk.ee.len)).zeroExtend 16
      ee := { s.blk.ee with
        addr := s.blk.ee.addr + BitVec.ofNat 16 (pageChunk s.blk.ee.addr s.blk.ee.len), len := 0
        done := s.blk.ee.done + BitVec.ofNat 7 (pageChunk s.blk.ee.addr s.blk.ee.len), phase := .idle } } } := by
  simp [chunkDone, h, eeDone_eq, State.setEe]

/-- The end of a chunk of EEWRBLK with bytes left: the next chunk is cut and polled for (R153). -/
theorem chunkDone_more {s : State} (h : s.blk.ee.len - BitVec.ofNat 7 (pageChunk s.blk.ee.addr s.blk.ee.len) ≠ 0) :
    chunkDone s = s.setEe { s.blk.ee with
      addr := s.blk.ee.addr + BitVec.ofNat 16 (pageChunk s.blk.ee.addr s.blk.ee.len)
      len := s.blk.ee.len - BitVec.ofNat 7 (pageChunk s.blk.ee.addr s.blk.ee.len)
      done := s.blk.ee.done + BitVec.ofNat 7 (pageChunk s.blk.ee.addr s.blk.ee.len)
      chunk := BitVec.ofNat 7 (pageChunk (s.blk.ee.addr + BitVec.ofNat 16 (pageChunk s.blk.ee.addr s.blk.ee.len))
        (s.blk.ee.len - BitVec.ofNat 7 (pageChunk s.blk.ee.addr s.blk.ee.len)))
      phase := .pollStart } := by
  rw [chunkDone]
  simp only [h, if_false]

/-- The chunk of a block with bytes in it is not empty and not longer than the block (R151). -/
theorem pageChunk_bounds {addr : Half} {len : BitVec 7} (h : len ≠ 0) :
    1 ≤ pageChunk addr len ∧ pageChunk addr len ≤ len.toNat := by
  have h0 : len.toNat ≠ 0 := fun h' => h (BitVec.eq_of_toNat_eq (by simpa using h'))
  have h1 : addr.toNat ≤ addr.toNat ||| 127 := Nat.left_le_or
  simp only [pageChunk, pageBoundary, Config.eePage, Nat.add_one_sub_one]
  omega

end Sys2Proof.Machine
end

