-- ==== Sys2Proof/Laws/HostPort.lean ====
section
/-! SUPPORT. What the host can do outside a write of CMD: a read touches h_rdata and the count of free values alone, a list handed to the
host becomes its list and leaves the block, and a reset edge reaches each device by `bankCut`. -/

namespace Sys2Proof.Machine

/-! ## Reading a register -/

/-- A register read leaves all but what surrounds the block, and of that the list and the turns. -/
theorem regRead_spec (num : Byte) (s : State) :
    ∃ e : Env, (regRead num s).2 = s.setEnv e ∧ e.prog = s.env.prog ∧ e.agenda = s.env.agenda := by
  unfold regRead
  split
  iterate 5 exact ⟨s.env, rfl, rfl, rfl⟩
  split
  · exact ⟨s.env, rfl, rfl, rfl⟩
  · split
    · exact drawByte_spec s
    · exact bufRead_spec _ s

/-- A host read leaves all but what surrounds the block, and of that the list and the turns; its value stands on h_rdata. -/
theorem hostRead_spec (num : Byte) (s : State) :
    ∃ e : Env, hostRead num s = s.setEnv e ∧ e.prog = s.env.prog ∧ e.agenda = s.env.agenda ∧ e.rdata = (regRead num s).1 := by
  obtain ⟨e, h, hp, ha⟩ := regRead_spec num s
  exact ⟨{ e with rdata := (regRead num s).1 }, by unfold hostRead; dsimp only; rw [h]; rfl, hp, ha, rfl⟩

@[simp] theorem hostRead_blk (num : Byte) (s : State) : (hostRead num s).blk = s.blk := by
  obtain ⟨e, h, _⟩ := hostRead_spec num s; rw [h]; rfl
@[simp] theorem hostRead_banks (num : Byte) (s : State) : (hostRead num s).banks = s.banks := by
  obtain ⟨e, h, _⟩ := hostRead_spec num s; rw [h]; rfl
@[simp] theorem hostRead_params (num : Byte) (s : State) : (hostRead num s).params = s.params := by
  obtain ⟨e, h, _⟩ := hostRead_spec num s; rw [h]; rfl
@[simp] theorem hostRead_prog (num : Byte) (s : State) : (hostRead num s).env.prog = s.env.prog := by
  obtain ⟨e, h, hp, _⟩ := hostRead_spec num s; rw [h]; exact hp
@[simp] theorem hostRead_agenda (num : Byte) (s : State) : (hostRead num s).env.agenda = s.env.agenda := by
  obtain ⟨e, h, _, ha, _⟩ := hostRead_spec num s; rw [h]; exact ha

/-! ## Handing the host a list -/

@[simp] theorem loadList_blk (acts : List HostAct) (s : State) : (s.loadList acts).blk = s.blk := rfl
@[simp] theorem loadList_env (acts : List HostAct) (s : State) : (s.loadList acts).env = { s.env with prog := acts } := rfl
@[simp] theorem loadList_params (acts : List HostAct) (s : State) : (s.loadList acts).params = s.params := rfl
@[simp] theorem loadList_bank (acts : List HostAct) (s : State) (b : Bank) :
    bankAt (s.loadList acts).banks b = { bankAt s.banks b with ours := false } := bankAt_mapBanks _ _ b

/-! ## Reset -/

@[simp] theorem rst_blk (s : State) : s.rst.blk = Block.reset := rfl
@[simp] theorem rst_params (s : State) : s.rst.params = s.params := rfl
@[simp] theorem rst_rdata (s : State) : s.rst.env.rdata = s.env.rdata := rfl
@[simp] theorem rst_prog (s : State) : s.rst.env.prog = s.env.prog := rfl
@[simp] theorem rst_bank (s : State) (b : Bank) :
    bankAt s.rst.banks b = bankCut (s.env.draws + b.toNat) (bankAt s.banks b) := by
  unfold State.rst bankAt
  simp

end Sys2Proof.Machine
end

