-- ==== Sys2Proof/Laws/PerInstr.lean ====
section
/-! SUPPORT. Statements for all commands, one lemma per constructor of `Instr`: the word of a command stands in its row of the opcode
table (30_encoding.md R107), and its top four bits are the opcode that STATUS.OP will hold (10_state.md R23). -/

namespace Sys2Proof.Laws.RowMatch

/-- The encoded word matches the pattern under the mask of the command's row, the row is one of the table, and bits 31:28 are the
opcode. -/
def Statement (i : Instr) : Prop :=
  i.row.isRowOf (encode i) = true ∧ i.row ∈ opcodeTable ∧ (encode i).extractLsb' 28 4 = i.opcode.zeroExtend 4

/-- A word matches a row where it does so bit by bit. -/
theorem isRowOf_of_bits {r : OpRow} {w : Word}
    (h : ∀ k, k < 32 → (w.getLsbD k && r.mask.getLsbD k) = r.pattern.getLsbD k) : r.isRowOf w = true := by
  simp only [OpRow.isRowOf, beq_iff_eq]
  exact BitVec.eq_of_getLsbD_eq fun k hk => by rw [BitVec.getLsbD_and]; exact h k hk

theorem eesel (bank : Byte) : Statement (.eesel bank) := by
  refine ⟨isRowOf_of_bits fun k hk => ?_, by simp [Instr.row, opcodeTable], BitVec.eq_of_getLsbD_eq fun k hk => ?_⟩
  · interval_cases k <;> simp only [encode, BitVec.getLsbD_append] <;> simp [Instr.row]
  · interval_cases k <;> simp only [encode, BitVec.getLsbD_extractLsb', BitVec.getLsbD_append] <;> simp [Instr.opcode]

theorem eerdb (addr : Half) : Statement (.eerdb addr) := by
  refine ⟨isRowOf_of_bits fun k hk => ?_, by simp [Instr.row, opcodeTable], BitVec.eq_of_getLsbD_eq fun k hk => ?_⟩
  · interval_cases k <;> simp only [encode, BitVec.getLsbD_append] <;> simp [Instr.row]
  · interval_cases k <;> simp only [encode, BitVec.getLsbD_extractLsb', BitVec.getLsbD_append] <;> simp [Instr.opcode]

theorem eerdblk (addr : Half) (len : BitVec 7) : Statement (.eerdblk addr len) := by
  refine ⟨isRowOf_of_bits fun k hk => ?_, by simp [Instr.row, opcodeTable], BitVec.eq_of_getLsbD_eq fun k hk => ?_⟩
  · interval_cases k <;> simp only [encode, BitVec.getLsbD_append] <;> simp [Instr.row]
  · interval_cases k <;> simp only [encode, BitVec.getLsbD_extractLsb', BitVec.getLsbD_append] <;> simp [Instr.opcode]

theorem eewrb (addr : Half) (value : Byte) : Statement (.eewrb addr value) := by
  refine ⟨isRowOf_of_bits fun k hk => ?_, by simp [Instr.row, opcodeTable], BitVec.eq_of_getLsbD_eq fun k hk => ?_⟩
  · interval_cases k <;> simp only [encode, BitVec.getLsbD_append] <;> simp [Instr.row]
  · interval_cases k <;> simp only [encode, BitVec.getLsbD_extractLsb', BitVec.getLsbD_append] <;> simp [Instr.opcode]

theorem eewrblk (addr : Half) (len : BitVec 7) : Statement (.eewrblk addr len) := by
  refine ⟨isRowOf_of_bits fun k hk => ?_, by simp [Instr.row, opcodeTable], BitVec.eq_of_getLsbD_eq fun k hk => ?_⟩
  · interval_cases k <;> simp only [encode, BitVec.getLsbD_append] <;> simp [Instr.row]
  · interval_cases k <;> simp only [encode, BitVec.getLsbD_extractLsb', BitVec.getLsbD_append] <;> simp [Instr.opcode]

theorem irtx (command : BitVec 7) (address : BitVec 5) : Statement (.irtx command address) := by
  refine ⟨isRowOf_of_bits fun k hk => ?_, by simp [Instr.row, opcodeTable], BitVec.eq_of_getLsbD_eq fun k hk => ?_⟩
  · interval_cases k <;> simp only [encode, BitVec.getLsbD_append] <;> simp [Instr.row]
  · interval_cases k <;> simp only [encode, BitVec.getLsbD_extractLsb', BitVec.getLsbD_append] <;> simp [Instr.opcode]

theorem irrx : Statement .irrx := by
  refine ⟨isRowOf_of_bits fun k hk => ?_, by simp [Instr.row, opcodeTable], BitVec.eq_of_getLsbD_eq fun k hk => ?_⟩
  · interval_cases k <;> simp only [encode, BitVec.getLsbD_append] <;> simp [Instr.row]
  · interval_cases k <;> simp only [encode, BitVec.getLsbD_extractLsb', BitVec.getLsbD_append] <;> simp [Instr.opcode]

end Sys2Proof.Laws.RowMatch
end

