-- ==== Sys2Proof/Machine/Wire.lean ====
section
/-! DEFINITION. The bit-level framing of the bus primitives (20_memory.md R62), which R62 marks as general knowledge and says no
rule depends on: the levels of the two wires that a trace of bus events stands for. No step reads it (log 26). -/

namespace Sys2Proof.Machine

/-- The levels of scl and sda at one moment. -/
structure WireLevel where
  scl : Bool
  sda : Bool
deriving DecidableEq, Repr

/-- One bit: sda changes only while scl is low, one scl pulse (R62). -/
def wireBit (b : Bool) : List WireLevel := [⟨false, b⟩, ⟨true, b⟩, ⟨false, b⟩]

/-- The ninth pulse: sda low is ACK, high is NACK (R62). -/
def wireAck (a : Ack) : List WireLevel := wireBit (a == .nack)

/-- A byte, most significant bit first (R62). -/
def wireByte (x : Byte) : List WireLevel := (List.range 8).flatMap (fun k => wireBit (x.getLsbD (7 - k)))

/-- A start condition is sda falling while scl is high, from whatever came before; a stop condition is sda rising while scl is
high (R62). -/
def wireEvent : BusEvent → List WireLevel
  | .start => [⟨false, true⟩, ⟨true, true⟩, ⟨true, false⟩, ⟨false, false⟩]
  | .write x a => wireByte x ++ wireAck a
  | .read x m => wireByte x ++ wireAck m
  | .stop => [⟨false, false⟩, ⟨true, false⟩, ⟨true, true⟩]

/-- A trace on the two wires. -/
def wireTrace (t : List BusEvent) : List WireLevel := t.flatMap wireEvent

end Sys2Proof.Machine
end

