-- ==== Sys2Proof/Tests/Slice0.lean ====
section
/-! SUPPORT. Small tests, each against a value the spec states or that is worked out from it by hand: well-formedness, decoding, one step
of each command, and for every obligation with hypotheses a concrete state that meets them. -/

namespace Sys2Proof.Tests

open Sys2Proof Sys2Proof.Machine

/-! ## Well-formedness (R109, R118): an ill-formed statement for each check -/

theorem test_wf_eesel_range : (Stmt.eesel 255).wellFormed = true ∧ (Stmt.eesel 256).wellFormed = false := by decide
theorem test_wf_eerdb_range : (Stmt.eerdb 0xFFFF).wellFormed = true ∧ (Stmt.eerdb 0x10000).wellFormed = false := by decide
theorem test_wf_eerdblk_range : (Stmt.eerdblk 0 127).wellFormed = true ∧ (Stmt.eerdblk 0 128).wellFormed = false ∧
    (Stmt.eerdblk 0x10000 1).wellFormed = false := by decide
theorem test_wf_eewrb_range : (Stmt.eewrb 0xFFFF 0xFF).wellFormed = true ∧ (Stmt.eewrb 0 256).wellFormed = false ∧
    (Stmt.eewrb 0x10000 0).wellFormed = false := by decide
theorem test_wf_eewrblk_range : (Stmt.eewrblk 0xFFFF 0).wellFormed = true ∧ (Stmt.eewrblk 0 128).wellFormed = false ∧
    (Stmt.eewrblk 0x10000 1).wellFormed = false := by decide
theorem test_wf_irtx_range : (Stmt.irtx 127 31).wellFormed = true ∧ (Stmt.irtx 128 0).wellFormed = false ∧
    (Stmt.irtx 0 32).wellFormed = false := by decide
theorem test_wf_bufw_range : (Stmt.bufw 126 255).wellFormed = true ∧ (Stmt.bufw 127 0).wellFormed = false ∧
    (Stmt.bufw 0 256).wellFormed = false := by decide
theorem test_wf_bufr_range : (Stmt.bufr 126).wellFormed = true ∧ (Stmt.bufr 127).wellFormed = false := by decide
theorem test_wf_eewr16_range : (Stmt.eewr16 0 0xFFFF).wellFormed = true ∧ (Stmt.eewr16 0 0x10000).wellFormed = false ∧
    (Stmt.eewr16 0x10000 0).wellFormed = false := by decide
theorem test_wf_eerd16_range : (Stmt.eerd16 0xFFFF).wellFormed = true ∧ (Stmt.eerd16 0x10000).wellFormed = false := by decide
theorem test_wf_plain : Stmt.irrx.wellFormed = true ∧ Stmt.res.wellFormed = true ∧ Stmt.calrd.wellFormed = true ∧
    Stmt.calwr.wellFormed = true := by decide
/-- "An operand outside its field's range is an assembly error, not a truncation" (R118). -/
theorem test_assemble_error : assemble (.eerdblk 0 128) = none := by decide
/-- EEWR16 of 0x1234 puts the low byte in EE_BUF[0] (R119). -/
theorem test_assemble_eewr16 : assemble (.eewr16 0x10 0x1234) =
    some [.write 128 0x34, .write 129 0x12, .write 0 0x50020010, .awaitIdle] := by decide

/-! ## Decoding: words written out bit by bit from the formats R101 to R106 -/

/-- op 0001, 27:8 zero, bank 00000010. -/
theorem test_decode_eesel : decode 0b00010000000000000000000000000010 = .ok (.eesel 2) := by decide
/-- op 0010, 27:16 zero, addr 0001001000110100. -/
theorem test_decode_eerdb : decode 0b00100000000000000001001000110100 = .ok (.eerdb 0x1234) := by decide
/-- op 0011, 27:23 zero, len 0001110, addr 1000000000000001. -/
theorem test_decode_eerdblk : decode 0b00110000000011101000000000000001 = .ok (.eerdblk 0x8001 14) := by decide
/-- op 0100, 27:24 zero, value 10101011, addr 0000000001111111. -/
theorem test_decode_eewrb : decode 0b01000000101010110000000001111111 = .ok (.eewrb 0x007F 0xAB) := by decide
/-- op 0101, 27:23 zero, len 1111111, addr 0000000001111010. -/
theorem test_decode_eewrblk : decode 0b01010000011111110000000001111010 = .ok (.eewrblk 0x007A 127) := by decide
/-- op 0110, 27:12 zero, address 00001, command 0000101. -/
theorem test_decode_irtx : decode 0b01100000000000000000000010000101 = .ok (.irtx 5 1) := by decide
/-- op 0111, 27:0 zero. -/
theorem test_decode_irrx : decode 0b01110000000000000000000000000000 = .ok .irrx := by decide
/-- A must-be-zero bit set at each end of each format's zero field (R100). -/
theorem test_decode_must_be_zero :
    decode 0x10000100 = .error (.mustBeZero 1) ∧ decode 0x18000000 = .error (.mustBeZero 1) ∧
    decode 0x20010000 = .error (.mustBeZero 2) ∧ decode 0x30800000 = .error (.mustBeZero 3) ∧
    decode 0x41000000 = .error (.mustBeZero 4) ∧ decode 0x50800000 = .error (.mustBeZero 5) ∧
    decode 0x60001000 = .error (.mustBeZero 6) ∧ decode 0x70000001 = .error (.mustBeZero 7) := by decide
/-- Opcodes 0x0 and 0x8 to 0xF are no rows (R108). -/
theorem test_decode_no_opcode : decode 0 = .error (.noSuchOpcode 0) ∧ decode 0x80000000 = .error (.noSuchOpcode 8) ∧
    decode 0xFFFFFFFF = .error (.noSuchOpcode 0xF) := by decide
theorem test_encode_worked : encode (.eewrblk 0x007A 14) = 0x500E007A ∧ encode (.irtx 5 1) = 0x60000085 := by decide
theorem test_table_word : decodeTableWord 32 0x40AB007F = some (.eewrb 0x007F 0xAB) := by decide

/-! ## One step -/

/-- A field of the next state; none where there is no next state. -/
def after {α : Type} (o : Result) (f : State → α) : Option α :=
  match o with
  | .next t => some (f t)
  | .fault _ => none
  | .refused _ => none

/-- The reset state with operation `op` in progress and the EEPROM sequencer at `ee`. -/
def eeState (op : BitVec 3) (ee : EeSeq) : State := { State.reset with blk.busy := true, blk.op := op, blk.ee := ee }

/-- The same with bank 0 in a mode. -/
def devState (op : BitVec 3) (ee : EeSeq) (d : BankDev) : State :=
  { eeState op ee with banks := setBank State.reset.banks 0 d, blk.bus := .opened }

/-- IRRX in progress with its sequencer at `rx` and the samples `l` to come. -/
def rxState (rx : RxSeq) (l : List Bool) : State :=
  { State.reset with blk.busy := true, blk.op := 7, blk.rx := rx, env.irIn := l }

/-- IRTX in progress with its sequencer at `tx`. -/
def txState (tx : TxSeq) : State := { State.reset with blk.busy := true, blk.op := 6, blk.tx := tx }

/-- `EESEL 2` leaves EE_DEVSEL = 0xA4, RESULT = 0x00A4 (R130). -/
theorem test_eesel_two : after (exec (.eesel 2) (eeState 1 ⟨0, 0, 0, 0, 0, .idle, 2, 0⟩))
    (fun t => (t.blk.devsel, t.blk.result, t.blk.busy)) = some (0xA4, 0x00A4, false) := by decide
/-- "bank 4 gives 0xFF" and EE_DEVSEL keeps its value (R130); the sentinel is U22's parameter. -/
theorem test_eesel_four : after (exec (.eesel 4) (eeState 1 ⟨0, 0, 0, 0, 0, .idle, 4, 0⟩))
      (fun t => (t.blk.devsel, t.blk.result, t.blk.ill)) = some (0xA0, 0x00FF, false) ∧
    after (exec (.eesel 4) { eeState 1 ⟨0, 0, 0, 0, 0, .idle, 4, 0⟩ with params.eeInvalidBank := 0x00 })
      (fun t => (t.blk.devsel, t.blk.result)) = some (0xA0, 0x0000) := by decide
/-- The only byte of EERDB is answered NACK (R132): R(5A,NACK). -/
theorem test_eerdb_datum : after (exec (.eerdb 0x1234) (devState 2 ⟨0x1234, 1, 0, 0, 0, .tData, 0, 0⟩
    ⟨[(0x1234, 0x5A)], 0x1234, false, [], .read, false⟩)) (fun t => (t.blk.busTrace, t.blk.ee.rdByte, t.blk.ee.phase)) =
    some ([.read 0x5A .nack], 0x5A, .tStop) := by decide
/-- The byte goes to RESULT[7:0] at the stop (R133). -/
theorem test_eerdb_done : after (exec (.eerdb 0x1234) (eeState 2 ⟨0x1234, 1, 0, 0, 0, .tStop, 0, 0x5A⟩))
    (fun t => (t.blk.result, t.blk.busy, t.blk.ee.done)) = some (0x005A, false, 1) := by decide
/-- The second of three bytes: ACK, to EE_BUF[1], the pointer wraps at 0xFFFF (R134, R77). -/
theorem test_eerdblk_datum : after (exec (.eerdblk 0xFFFE 3) (devState 3 ⟨0xFFFE, 3, 1, 0, 0, .tData, 0, 0⟩
    ⟨[(0xFFFF, 0x11)], 0xFFFF, false, [], .read, false⟩)) (fun t => (t.blk.busTrace, t.blk.buf, (bankAt t.banks 0).ptr)) =
    some ([.read 0x11 .ack], [(1, 0x11)], 0) := by decide
/-- `len` = 0 executes `done(0)` and nothing else (R134). -/
theorem test_eerdblk_empty : after (exec (.eerdblk 7 0) (eeState 3 ⟨7, 0, 0, 0, 0, .idle, 0, 0⟩))
    (fun t => (t.blk.result, t.blk.busy, t.blk.busTrace)) = some (0, false, []) := by decide
/-- The data byte of EEWRB: latched at the pointer's place, which comes back to the page's start (R75); EE_CHUNK is 0 (R150). -/
theorem test_eewrb_datum : after (exec (.eewrb 0x007F 0xAB) (devState 4 ⟨0x007F, 1, 0, 1, 0xAB, .tData, 0, 0⟩
    ⟨[], 0x007F, false, [], .writeData, false⟩)) (fun t => ((bankAt t.banks 0).latch, (bankAt t.banks 0).ptr, t.blk.ee.chunk)) =
    some ([(0x7F, 0xAB)], 0, 0) := by decide
/-- The stop starts the write cycle and the operation is done with 1, the byte not yet in the memory (R152). -/
theorem test_eewrb_done : after (exec (.eewrb 0x007F 0xAB) (devState 4 ⟨0x007F, 1, 0, 0, 0xAB, .tStop, 0, 0⟩
    ⟨[], 0, false, [(0x7F, 0xAB)], .writeData, false⟩))
    (fun t => (t.blk.result, (bankAt t.banks 0).busy, (bankAt t.banks 0).mem)) = some (1, true, []) := by decide
/-- `EEWRBLK 0x007A, 14`: the first chunk is 6 bytes, then 8 are left at 0x0080 (R151, R153). -/
theorem test_eewrblk_chunk : after (exec (.eewrblk 0x007A 14) (devState 5 ⟨0x007A, 14, 0, 0, 0, .tStop, 0, 0⟩
    ⟨[], 0, false, [(0x7A, 1)], .writeData, false⟩))
    (fun t => (t.blk.ee.addr, t.blk.ee.len, t.blk.ee.done, t.blk.ee.chunk, t.blk.ee.phase)) =
    some (0x0080, 8, 6, 8, .pollStart) := by decide
/-- The third byte of the second chunk of that block is EE_BUF[8] (R153). -/
theorem test_eewrblk_index : writeIndex ⟨0x0080, 8, 6, 6, 0, .tData, 0, 0⟩ = 8 := by decide
/-- Bit 0 of the frame word 0x085 is a 1: 1200 us of carrier (R171, R172). -/
theorem test_irtx_bit : after (exec (.irtx 5 1) (txState ⟨0x085, 0, 0, .bitOn, false⟩))
    (fun t => (t.blk.txTrace, t.blk.tx.irTxEn)) = some ([⟨true, 1200⟩], true) := by decide
/-- The last gap of the first frame is followed by an inter-frame gap, that of the third ends the operation (R172, R115). -/
theorem test_irtx_ends : after (exec (.irtx 5 1) (txState ⟨0x085, 0, 11, .bitGap, true⟩)) (fun t => (t.blk.tx.phase, t.blk.busy)) =
      some (.frameGap, true) ∧
    after (exec (.irtx 5 1) (txState ⟨0x085, 2, 11, .bitGap, true⟩)) (fun t => (t.blk.tx.phase, t.blk.busy)) =
      some (.idle, false) := by decide
/-- "A pulse of exactly RX_HDR_MIN ticks is a header" (R198), and it drops the bits accumulated (R195). -/
theorem test_irrx_header : after (exec .irrx (rxState ⟨18, 11, 0x5A5, true⟩ [false])) (fun t => t.blk.rx) =
    some ⟨0, 0, 0, true⟩ := by decide
/-- "Of exactly RX_ONE_MIN ticks a 1" (R198), and the twelfth bit ends the operation (R197). -/
theorem test_irrx_twelfth : after (exec .irrx (rxState ⟨9, 11, 0x085, true⟩ [false])) (fun t => (t.blk.result, t.blk.busy)) =
    some (0x885, false) := by decide
/-- The poll: NACK sends the engine straight to the next start (R131); an absent bank NACKs for ever (R78). -/
theorem test_poll_absent : after (exec (.eerdb 0) { eeState 2 ⟨0, 1, 0, 0, 0, .pollCtrl, 0, 0⟩ with
    blk.devsel := 0xA2, blk.bus := .started }) (fun t => (t.blk.busTrace, t.blk.ee.phase)) =
    some ([.write 0xA2 .nack], .pollStart) := by decide
/-- A set and a clear in one step leave BTN_FLAG set (R26, R85). -/
theorem test_button_wins : after (step { State.reset with
    blk.btnFlag := true, env.prog := [.write 4 1], env.agenda := [⟨.host, true⟩] }) (fun t => t.blk.btnFlag) = some true := by decide
/-- STATUS with OP = 6, ILL = 0, BUSY = 1 is 0x61 (R23). -/
theorem test_status_word : (txState TxSeq.reset).statusWord = 0x61 := by decide
/-- A commit stores the latch in order, a later pair to the same address winning (R76). -/
theorem test_commit_order : (bankCommit ⟨[(5, 1)], 0, true, [(5, 2), (3, 9), (5, 4)], .idle, false⟩).mem = [(3, 9), (5, 4)] := by decide
/-- A run is over with a register read still to come, but not with a command, nor in a write cycle of the list; a cycle that was there
before the list does not count (R265). -/
theorem test_run_over :
    let d (ours : Bool) : BankDev := ⟨[], 0, true, [(0, 1)], .idle, ours⟩
    let s (ours : Bool) (rest : List HostAct) : State :=
      { State.reset with banks := setBank State.reset.banks 3 (d ours), env.prog := rest }
    (s false [.awaitIdle, .read 2]).runOver = true ∧ (s false [.write 0 0x70000000]).runOver = false ∧
    (s true []).runOver = false ∧ ((s true []).loadList []).runOver = true := by decide
/-- A read in the list puts its value on h_rdata (R35), and a reset edge leaves it there (log 18). -/
theorem test_rdata : after (step { State.reset with env.prog := [.read 3] }) (fun t => t.env.rdata) = some 0xA0 ∧
    after (step { State.reset with env.rdata := 7, env.agenda := [⟨.rst, false⟩] }) (fun t => t.env.rdata) = some 7 := by decide
/-- The bytes of V-style calibration data: 1500 = 0x05DC low byte first (R67). -/
theorem test_field_bytes : fieldBytes true 0x05DC = [0xDC, 0x05] := by decide
/-- A start condition is sda falling while scl is high (R62). -/
theorem test_wire_start : wireEvent .start = [⟨false, true⟩, ⟨true, true⟩, ⟨true, false⟩, ⟨false, false⟩] := by decide
/-- A word placed at reset runs as the next step. -/
theorem test_fetch_word : after (step (State.reset.withFetchWord 32 0x60000085))
    (fun t => (t.blk.busy, t.blk.op, t.blk.tx.word)) = some (true, 6, 0x085) := by decide

/-! ## Witnesses: a concrete state and operands for the hypotheses of each obligation, at a boundary value for each clause -/

theorem witness_DecodeOfEncode : (Instr.eewrblk 0xFFFF 127).wellFormed = true := by decide
theorem witness_DecodeIsExact : decode 0x507FFFFF = .ok (.eewrblk 0xFFFF 127) := by decide
theorem witness_LegalWordsAreTheRows_row : (⟨"IRRX", 0x70000000, 0xFFFFFFFF⟩ : OpRow) ∈ opcodeTable ∧
    (⟨"IRRX", 0x70000000, 0xFFFFFFFF⟩ : OpRow).isRowOf 0x70000000 = true := by decide
theorem witness_LegalWordsAreTheRows_none : ∀ r ∈ opcodeTable, r.isRowOf 0x70000001 = false := by decide
theorem witness_OperandFields : decode 0x60000FFF = .ok (.irtx 127 31) := by decide

/-- Idle, the host's turn, a write of `EESEL 2` to CMD next. -/
def commandState : State :=
  { State.reset with env.agenda := [⟨.host, true⟩], env.prog := [.write 0 0x10000002, .awaitIdle] }

theorem witness_StepRunsTheCommandWord : commandState.env.agenda = ⟨.host, true⟩ :: [] ∧
    commandState.env.prog = .write 0 0x10000002 :: [.awaitIdle] ∧ commandState.blk.busy = false ∧
    decode 0x10000002 = .ok (.eesel 2) := by decide
theorem witness_StepRunsTheEngine_turn :
    let s : State := { eeState 2 ⟨0x1234, 1, 0, 0, 0, .pollStart, 0, 0⟩ with env.agenda := [⟨.engine, true⟩] }
    s.env.agenda = ⟨.engine, true⟩ :: [] ∧ s.inProgress = some (.eerdb 0x1234) := by decide
theorem witness_StepRunsTheEngine_default :
    let s : State := rxState RxSeq.reset []
    s.env.agenda = [] ∧ s.inProgress = some .irrx ∧ ∀ b : Bank, (bankAt s.banks b).busy = false := by decide
theorem witness_PlacedWordRuns : decode 0x70000000 = .ok .irrx := by decide
theorem witness_BusyBlockTakesNothing : (txState TxSeq.reset).blk.busy = true ∧ 128 ≤ (128 : Byte).toNat ∧ 128 ≤ (255 : Byte).toNat ∧
    (txState TxSeq.reset).blk.op ≠ Instr.irrx.opcode := by decide
theorem witness_IllegalWordSetsIll_illegal : State.reset.blk.busy = false ∧ ∀ i, decode 0x00000000 ≠ .ok i := by
  refine ⟨rfl, fun i h => ?_⟩
  rw [show decode 0x00000000 = .error (.noSuchOpcode 0) by decide] at h
  cases h
theorem witness_IllegalWordSetsIll_legal : ({ State.reset with blk.ill := true } : State).blk.busy = false ∧
    decode 0x70000000 = .ok .irrx := by decide

/-- EE_BUF[0] = 0x11 and EE_BUF[126] = 0x22. -/
def bufState : State := { State.reset with blk.buf := [(0, 0x11), (126, 0x22)] }

theorem witness_HostReads_reserved : (5 ≤ (5 : Byte).toNat ∧ (5 : Byte).toNat ≤ 127) ∧
    (5 ≤ (127 : Byte).toNat ∧ (127 : Byte).toNat ≤ 127) ∧ (255 : Byte).toNat = 255 := by decide
theorem witness_HostReads_buffer : bufState.blk.busy = false ∧ memRead bufState.blk.buf 0 = some 0x11 ∧
    126 < 127 ∧ memRead bufState.blk.buf 126 = some 0x22 := by decide
theorem witness_HostReads_free : memRead bufState.blk.buf 125 = none ∧ (txState TxSeq.reset).blk.busy = true := by decide
/-- A read and a wait at the head of the list, the wait at BUSY = 0 and at BUSY = 1. -/
theorem witness_HostReads_list :
    ({ State.reset with env.prog := [.read 254, .awaitIdle] } : State).env.prog = .read 254 :: [.awaitIdle] ∧
    ({ State.reset with env.prog := [.awaitIdle] } : State).env.prog = .awaitIdle :: [] ∧
    ({ txState TxSeq.reset with env.prog := [.awaitIdle, .read 2] } : State).env.prog = .awaitIdle :: [.read 2] := by decide
theorem witness_HostWrites : (1 ≤ (1 : Byte).toNat ∧ (3 : Byte).toNat ≤ 3) ∧ (5 ≤ (5 : Byte).toNat ∧ (127 : Byte).toNat ≤ 127) ∧
    (255 : Byte).toNat = 255 ∧ 0 < 127 ∧ 126 < 127 ∧ bufState.blk.busy = false := by decide
theorem witness_HostCannotDisturbAnEngine :
    let s : State := { txState TxSeq.reset with blk.btnFlag := true, env.prog := [.write 4 1] }
    s.blk.busy = true := by decide

/-! The button and reset. -/

theorem witness_ButtonEventSetsTheFlag : Agent.commit 3 ≠ Agent.rst ∧
    ({ State.reset with env.agenda := [⟨.idle, true⟩] } : State).env.agenda = ⟨.idle, true⟩ :: [] := by decide
/-- The flag falls by a host write of BTN. -/
theorem witness_ButtonRegisterWriters_host :
    let s : State := { State.reset with blk.btnFlag := true, env.prog := [.write 4 0xFFFFFFFF] }
    s.blk.btnFlag = true ∧ after (step s) (fun t => t.blk.btnFlag) = some false := by decide
/-- The flag falls and the count changes by a tick of IRRX. -/
theorem witness_ButtonRegisterWriters_engine :
    let s : State := { rxState RxSeq.reset [] with blk.btnFlag := true }
    s.blk.btnFlag = true ∧ after (step s) (fun t => (t.blk.btnFlag, t.blk.btnCount)) = some (false, 1) := by decide
/-- Both by reset. -/
theorem witness_ButtonRegisterWriters_reset :
    let s : State := { State.reset with blk.btnFlag := true, blk.btnCount := 5, env.agenda := [⟨.rst, true⟩] }
    s.blk.btnFlag = true ∧ after (step s) (fun t => (t.blk.btnFlag, t.blk.btnCount)) = some (false, 0) := by decide
/-- A reset while bank 0 is in its write cycle. -/
theorem witness_ResetStep :
    let s : State := { devState 4 ⟨0, 1, 1, 0, 0, .idle, 0, 0⟩ ⟨[], 1, true, [(0, 1)], .idle, false⟩ with env.agenda := [⟨.rst, false⟩] }
    s.env.agenda = ⟨.rst, false⟩ :: [] ∧ ∀ b : Bank, (bankAt s.banks b).mode = .idle := by decide

/-! The whole machine. -/

/-- An EERDB whose first primitive is next. -/
def pollState : State := eeState 2 ⟨0x1234, 1, 0, 0, 0, .pollStart, 0, 0⟩

theorem pollState_coherent : pollState.Coherent := by
  refine ⟨.inl rfl, ⟨by decide, rfl, by decide, ?_⟩, ?_, ⟨by decide, by decide, by decide, by decide, by decide⟩⟩
  · have h : ∀ b : Bank, (bankAt pollState.banks b).latch = [] := by decide
    intro b c hc
    rw [h b] at hc
    cases hc
  · exact ⟨by decide, by decide, by decide, by decide, by decide, by decide, by decide, by decide, by decide, by decide, by decide⟩

theorem witness_StepKeepsCoherence : pollState.Coherent ∧ ∃ t, step pollState = .next t := ⟨pollState_coherent, _, rfl⟩
theorem witness_CoherentStatesRun : pollState.Coherent := pollState_coherent
theorem witness_AcceptanceLoads : bufState.blk.busy = false := by decide
theorem witness_ExecFrame : (∃ t, exec (.eerdb 0x1234) pollState = .next t) ∧ pollState.blk.busy = true := ⟨⟨_, rfl⟩, rfl⟩

/-- Nothing in progress, the list's last wait still to be read; bank 3 in a write cycle that was there before the list. -/
def endState : State :=
  { State.reset with
    banks := setBank State.reset.banks 3 ⟨[], 0, true, [(0, 1)], .idle, false⟩
    env.prog := [.awaitIdle]
    env.agenda := [⟨.host, false⟩] }

theorem endState_coherent : endState.Coherent := by
  refine ⟨.inl rfl, ⟨by decide, rfl, by decide, ?_⟩, ?_, ⟨by decide, by decide, by decide, by decide, by decide⟩⟩
  · have h : ∀ b : Bank, ∀ c ∈ (bankAt endState.banks b).latch, c.1 < 65536 := by decide
    exact h
  · exact ⟨by decide, by decide, by decide, by decide, by decide, by decide, by decide, by decide, by decide, by decide, by decide⟩

theorem witness_EndOfRun : endState.Coherent ∧ endState.runOver = true ∧ (nextSlot endState).agent ≠ .rst ∧
    (bankAt endState.banks 0).busy = false ∧ ∃ t, step endState = .next t :=
  ⟨endState_coherent, by decide, by decide, by decide, _, rfl⟩

/-! The EEPROM operations. -/

theorem witness_EeselSelects : State.reset.blk.busy = false ∧ (3 : Byte).toNat ≤ 3 ∧ ¬(4 : Byte).toNat ≤ 3 ∧
    ¬legalSelect State.reset.params.eeInvalidBank := by unfold legalSelect; decide

/-- Idle, bank 2 selected, banks 0 and 2 present, bank 0 in a write cycle of its own; the poll merged or not. -/
def readyState (merged : Bool) : State :=
  { State.reset with
    blk.devsel := 0xA4
    banks := setBank State.reset.banks 0 ⟨[], 0, true, [(9, 1)], .idle, false⟩
    params.banksPresent := #v[true, false, true, false]
    params.pollMerged := merged }

theorem readyState_ready (merged : Bool) : (readyState merged).blk.busy = false ∧ legalSelect (readyState merged).blk.devsel ∧
    (readyState merged).ready ∧ (readyState merged).busQuiet := by
  refine ⟨rfl, .inr (.inr (.inl rfl)), ⟨rfl, ?_⟩, ?_⟩
  · revert merged; decide
  · unfold State.busQuiet; revert merged; decide

theorem witness_EerdbReadsTheByte : (readyState true).blk.busy = false ∧ legalSelect (readyState true).blk.devsel ∧
    (readyState true).ready ∧ (readyState true).busQuiet := readyState_ready true
theorem witness_EerdblkFillsTheBuffer : ((readyState false).blk.busy = false ∧ legalSelect (readyState false).blk.devsel ∧
    (readyState false).ready ∧ (readyState false).busQuiet) ∧ (1 : BitVec 7) ≠ 0 ∧ (127 : BitVec 7) ≠ 0 :=
  ⟨readyState_ready false, by decide⟩
theorem witness_EmptyBlock : State.reset.blk.busy = false := by decide
theorem witness_ReadFinishes : (eeState 2 ⟨0, 1, 0, 0, 0, .tStop, 0, 7⟩).blk.busy = true ∧
    (eeState 2 ⟨0, 1, 0, 0, 0, .tStop, 0, 7⟩).blk.ee.phase = .tStop ∧ (eeState 2 ⟨0, 1, 0, 0, 0, .tStop, 0, 7⟩).blk.op = 2 ∧
    (eeState 3 ⟨0, 127, 127, 0, 0, .tStop, 0, 0⟩).blk.op = 3 := by decide
/-- A poll of a bank with no device, and one of a bank in its write cycle. -/
theorem witness_PollWaits :
    let s : State := { eeState 5 ⟨0, 1, 0, 0, 0, .pollStart, 0, 0⟩ with blk.devsel := 0xA2 }
    let d : State := devState 2 ⟨0, 1, 0, 0, 0, .pollStart, 0, 0⟩ ⟨[], 0, true, [(0, 1)], .idle, false⟩
    (s.blk.busy = true ∧ s.blk.op = (Instr.eewrblk 0 1).opcode ∧ s.blk.ee.phase = .pollStart ∧ s.params.device = .reference ∧
      controlAcked s.params s.banks s.blk.devsel = false) ∧
    (d.blk.busy = true ∧ d.blk.op = (Instr.eerdb 0).opcode ∧ d.blk.ee.phase = .pollStart ∧ d.params.device = .reference ∧
      controlAcked d.params d.banks d.blk.devsel = false) := by decide
theorem witness_PollWaits_quiet :
    ({ eeState 5 ⟨0, 1, 0, 0, 0, .pollStart, 0, 0⟩ with blk.devsel := 0xA2 } : State).busQuiet ∧
    (devState 2 ⟨0, 1, 0, 0, 0, .pollStart, 0, 0⟩ ⟨[], 0, true, [(0, 1)], .idle, false⟩).busQuiet := by
  unfold State.busQuiet; decide
/-- At the transaction's own control byte, and at the merged poll of a bank that acknowledges. -/
theorem witness_AddressHighByteFirst :
    let s : State := { eeState 4 ⟨0x1234, 1, 0, 1, 0, .tCtrlW, 0, 0⟩ with blk.bus := .started }
    let m : State := { eeState 3 ⟨0x1234, 127, 0, 0, 0, .pollCtrl, 0, 0⟩ with blk.bus := .started, params.pollMerged := true }
    (s.blk.busy = true ∧ s.blk.op = (Instr.eewrb 0x1234 0).opcode ∧ s.blk.ee.phase = .tCtrlW) ∧
    (m.blk.busy = true ∧ m.blk.op = (Instr.eerdblk 0x1234 127).opcode ∧ m.blk.ee.phase = .pollCtrl ∧ m.params.pollMerged = true ∧
      (busWrite m.blk.devsel m).1 = .ack) := by decide
theorem witness_EewrbWritesTheByte : (readyState false).blk.busy = false ∧ legalSelect (readyState false).blk.devsel ∧
    (readyState false).ready ∧ (readyState false).busQuiet := readyState_ready false
theorem witness_ChunkRule : 1 ≤ (1 : BitVec 7).toNat ∧ 1 ≤ (127 : BitVec 7).toNat := by decide
/-- A block that ends at its page's last byte, and one a byte longer. -/
theorem witness_ChunkSequence : (0x7A : Half).toNat % 128 + (6 : BitVec 7).toNat = 128 ∧
    (7 : BitVec 7) - BitVec.ofNat 7 (pageChunk 0x7A 7) ≠ 0 := by decide
theorem witness_EewrblkWritesOnePage : ((readyState false).blk.busy = false ∧ legalSelect (readyState false).blk.devsel ∧
    (readyState false).ready ∧ (readyState false).busQuiet) ∧ (6 : BitVec 7) ≠ 0 ∧
    (0xFFFA : Half).toNat % 128 + (6 : BitVec 7).toNat ≤ 128 ∧ (readyState false).params.eeCapacity = 65536 :=
  ⟨readyState_ready false, by decide⟩
theorem witness_EewrblkWritesTwoPages : ((readyState true).blk.busy = false ∧ legalSelect (readyState true).blk.devsel ∧
    (readyState true).ready ∧ (readyState true).busQuiet) ∧
    128 < (0xFFFF : Half).toNat % 128 + (2 : BitVec 7).toNat ∧ (readyState true).params.eeCapacity = 65536 :=
  ⟨readyState_ready true, by decide⟩
theorem witness_WriteFinishes : (eeState 4 ⟨0, 1, 0, 0, 9, .tStop, 0, 0⟩).blk.busy = true ∧
    (eeState 4 ⟨0, 1, 0, 0, 9, .tStop, 0, 0⟩).blk.ee.phase = .tStop ∧ (eeState 4 ⟨0, 1, 0, 0, 9, .tStop, 0, 0⟩).blk.op = 4 ∧
    (eeState 5 ⟨127, 2, 0, 0, 0, .tStop, 0, 0⟩).blk.op = 5 := by decide
theorem witness_ReadAfterWrite : (readyState false).blk.busy = false ∧ legalSelect (readyState false).blk.devsel ∧
    (readyState false).ready ∧ (readyState false).busQuiet := readyState_ready false
theorem witness_ReadAfterWrite_block : (1 : BitVec 7) ≠ 0 ∧ (127 : BitVec 7) ≠ 0 := by decide
/-- A block inside its page, and one across the boundary. -/
theorem witness_ReadAfterBlockWrite : ((readyState true).blk.busy = false ∧ legalSelect (readyState true).blk.devsel ∧
    (readyState true).ready ∧ (readyState true).busQuiet) ∧ (1 : BitVec 7) ≠ 0 ∧ (127 : BitVec 7) ≠ 0 ∧
    (readyState true).params.eeCapacity = 65536 ∧ pageChunk 0xFFFF 1 = 1 ∧ pageChunk 0xFFFF 127 = 1 :=
  ⟨readyState_ready true, by decide⟩
/-- An address byte under an open device, acknowledged and not. -/
theorem witness_AnswersAreIgnored :
    let s : State := { eeState 4 ⟨0x1234, 1, 0, 1, 0, .tAddrHi, 0, 0⟩ with params.device := .oracle, blk.bus := .opened }
    s.params.device = .oracle ∧ s.blk.ee.phase ≠ .pollCtrl ∧
    after (exec (.eewrb 0x1234 0) { s with env.ackIn := .ack :: [] }) (fun t => t.blk.busTrace) = some [.write 0x12 .ack] ∧
    after (exec (.eewrb 0x1234 0) { s with env.ackIn := .nack :: [] }) (fun t => t.blk.busTrace) = some [.write 0x12 .nack] := by
  decide

/-! The device. -/

theorem witness_ControlAnswer : Params.default.sharedCycle = false ∧
    ((0xA1 : Byte).extractLsb' 4 4 = 0b1010#4 ∧ (0xA1 : Byte).getLsbD 3 = false ∧
      Params.default.banksPresent[(0 : Bank).toNat]'(0 : Bank).isLt = true ∧ (bankAt State.reset.banks 0).busy = false) := by decide
theorem witness_PageWrap : (⟨[], 5, false, [(1, 1)], .writeAddr0, false⟩ : BankDev).busy = false ∧
    (⟨[], 5, false, [(1, 1)], .writeAddr0, false⟩ : BankDev).mode = .writeAddr0 := by decide
theorem witness_CommitStores : (⟨[(5, 1)], 0, true, [(5, 2), (65535, 4)], .idle, false⟩ : BankDev).busy = true ∧
    memWf 65536 [(5, 1)] = true ∧ ∀ c ∈ ([(5, 2), (65535, 4)] : List Host.Cell), c.1 < 65536 := by
  refine ⟨rfl, by decide, ?_⟩
  simp
theorem witness_ReadMode :
    let s := devState 2 ⟨0, 1, 0, 0, 0, .tData, 0, 0⟩ ⟨[], 0xFFFF, false, [], .read, false⟩
    s.params.device = .reference ∧ (bankAt s.banks 0).mode = .read ∧ ∀ b' : Bank, b' ≠ 0 → (bankAt s.banks b').mode ≠ .read := by
  decide
/-- A commit of bank 0, whose latch holds address 5 alone: another bank's bytes and its own other bytes stay. -/
theorem witness_OnlyCommitStores :
    let s : State := { devState 4 EeSeq.reset ⟨[], 0, true, [(5, 1)], .idle, false⟩ with blk.busy := false }
    (nextSlot s).agent = .commit 0 ∧ (nextSlot s).agent ≠ .commit 1 ∧ (∀ c ∈ (bankAt s.banks 0).latch, c.1 ≠ 6) ∧
    after (step s) (fun t => (bankAt t.banks 0).mem) = some [(5, 1)] := by decide

/-! Infrared. -/

theorem witness_IrtxTransmits : bufState.blk.busy = false := by decide
theorem witness_IrtxEmits : (txState ⟨0x085, 0, 0, .bitOn, false⟩).blk.busy = true ∧
    (txState ⟨0x085, 0, 0, .bitOn, false⟩).blk.op = 6 ∧ (txState ⟨0x085, 0, 0, .bitOn, false⟩).blk.tx.phase = .bitOn ∧
    (txState ⟨0x085, 2, 11, .bitGap, true⟩).blk.tx.phase = .bitGap ∧ (txState ⟨0x085, 2, 11, .bitGap, true⟩).blk.tx.bit = 11 ∧
    (txState ⟨0x085, 2, 11, .bitGap, true⟩).blk.tx.rep = 2 := by decide
theorem witness_IrrxEntry : ({ State.reset with blk.btnFlag := true } : State).blk.busy = false ∧
    ({ State.reset with blk.btnFlag := true } : State).blk.btnFlag = true := by decide
theorem witness_IrrxFallback :
    let s : State := { rxState RxSeq.reset [] with blk.btnFlag := true, blk.btnCount := 127 }
    let u : State := { s with params.btnUpdate := .unknown }
    s.blk.busy = true ∧ s.blk.op = 7 ∧ s.blk.btnFlag = true ∧ s.params.btnUpdate = .plusOne ∧ u.params.btnUpdate = .unknown := by
  decide
theorem witness_IrrxCountsTheLevel :
    let h := rxState ⟨65535, 0, 0, false⟩ [true]
    let l := rxState RxSeq.reset [false]
    (h.blk.busy = true ∧ h.blk.op = 7 ∧ h.blk.btnFlag = false ∧ h.sampleIr = (true, h.sampleIr.2)) ∧
    (l.blk.busy = true ∧ l.blk.op = 7 ∧ l.blk.btnFlag = false ∧ l.sampleIr = (false, l.sampleIr.2) ∧ l.blk.rx.pulse = 0) := by decide
theorem witness_IrrxHeader :
    let s := rxState ⟨18, 11, 0x5A5, true⟩ [false]
    s.blk.busy = true ∧ s.blk.op = 7 ∧ s.blk.btnFlag = false ∧ s.sampleIr = (false, s.sampleIr.2) ∧ s.blk.rx.pulse ≠ 0 ∧
    s.params.rxHdrMin ≤ s.blk.rx.pulse.toNat := by decide
theorem witness_IrrxBits :
    let s := rxState ⟨17, 11, 0x5A5, true⟩ [false]
    let n := rxState ⟨1, 0, 0, false⟩ [false]
    (s.blk.busy = true ∧ s.blk.op = 7 ∧ s.blk.btnFlag = false ∧ s.sampleIr = (false, s.sampleIr.2) ∧ s.blk.rx.pulse ≠ 0 ∧
      s.blk.rx.pulse.toNat < s.params.rxHdrMin ∧ s.blk.rx.hdr = true ∧ s.blk.rx.bitCnt.toNat < 12) ∧
    (n.blk.busy = true ∧ n.blk.op = 7 ∧ n.blk.btnFlag = false ∧ n.sampleIr = (false, n.sampleIr.2) ∧ n.blk.rx.pulse ≠ 0 ∧
      n.blk.rx.pulse.toNat < n.params.rxHdrMin ∧ n.blk.rx.hdr = false ∧ n.params.countBeforeHeader = false) := by decide
/-- A header of exactly RX_HDR_MIN ticks, and twelve bits of exactly one less. -/
theorem witness_IrrxDecodesPulses :
    let header : Nat × Nat := (18, 1)
    let bits : List (Nat × Nat) := List.replicate 12 (17, 1)
    let s : State := { State.reset with env.irIn := pulseTrain (header :: bits) ++ [true] }
    s.blk.busy = false ∧ s.blk.btnFlag = false ∧ bits.length = 12 ∧ 1 ≤ header.1 ∧ s.params.rxHdrMin ≤ header.1 ∧
    s.params.rxHdrMin ≤ 65535 ∧ 1 ≤ header.2 ∧ (∀ p ∈ bits, 1 ≤ p.1 ∧ p.1 < s.params.rxHdrMin ∧ 1 ≤ p.2) ∧
    s.env.irIn = pulseTrain (header :: bits) ++ [true] :=
  ⟨rfl, rfl, rfl, by decide, by decide, by decide, by decide, by decide, rfl⟩
/-- The trace of `IRTX 0, 0` at the default tick and the latest phase, one frame's samples. -/
theorem witness_IrRoundTrip :
    let s : State := { State.reset with
      env.irIn := List.replicate 3 false ++ samples (transmitSegments (frameWord 0 0)) 100 99 174 ++ [true] }
    s.blk.busy = false ∧ s.blk.btnFlag = false ∧ s.params.countBeforeHeader = false ∧ rxAdmissible s.params = true ∧
    99 < s.params.tRxTick ∧ duration (frameSegments (frameWord 0 0)) ≤ 174 * s.params.tRxTick ∧
    s.env.irIn = List.replicate 3 false ++ samples (transmitSegments (frameWord 0 0)) s.params.tRxTick 99 174 ++ [true] := by
  refine ⟨rfl, rfl, rfl, by decide, by decide, by decide, rfl⟩
theorem witness_CalibrationRoundTrip :
    (⟨1500, 1480, 200, 210, 0x1234, 0xFFFF, 1⟩ : CalRecord).fields[0]? = some 1500 ∧
    (⟨1500, 1480, 200, 210, 0x1234, 0xFFFF, 1⟩ : CalRecord).fields[6]? = some 1 := by decide

end Sys2Proof.Tests
end

section
/-! SUPPORT. Coherence, cut into what one bank owes the phase of the transaction, where the EEPROM sequencer may stand in an
operation, and how the parts make a coherent state again. -/

namespace Sys2Proof.Machine

/-! ## One bank -/

/-- A bank between two transactions: canonical, waiting for a control byte, and without bytes that no stop condition has closed (R76). -/
structure BankDev.Rests (p : Params) (d : BankDev) : Prop where
  mem : memWf p.eeCapacity d.mem = true
  cells : ∀ c ∈ d.latch, c.1 < p.eeCapacity
  idle : d.mode = .idle
  closed : bankOpenLatch d = false

/-- One bank's share of `State.MemOk` and `State.BusOk` at a phase of the transaction (R74 to R77); `coherent_iff` ties it to them. -/
structure BankDev.Fits (p : Params) (reading writing : Bool) (ph : EePhase) (d : BankDev) : Prop where
  mem : memWf p.eeCapacity d.mem = true
  cells : ∀ c ∈ d.latch, c.1 < p.eeCapacity
  mode : d.mode = .idle ∨ d.mode = modeAt reading ph
  cycle : d.busy = true → d.mode = .idle
  latch : bankOpenLatch d = true → d.mode = .writeData ∧ (ph = .tData ∨ ph = .tStop) ∧ writing = true
  oracle : p.device = .oracle → d.mode = .idle ∧ bankOpenLatch d = false

theorem bankOnByte_of_idle {d : BankDev} {x : Byte} {capacity : Nat} (hi : d.mode = .idle) : bankOnByte capacity x d = d := by
  simp [bankOnByte, hi]

theorem bankAfterRead_of_idle {d : BankDev} {m : Ack} (hi : d.mode = .idle) : bankAfterRead m d = d := by
  simp [bankAfterRead, hi]

namespace BankDev

variable {p : Params} {r w : Bool} {ph next : EePhase} {d : BankDev}

/-- A bank at rest fits every phase. -/
theorem Rests.fits (h : d.Rests p) : d.Fits p r w ph :=
  ⟨h.mem, h.cells, .inl h.idle, fun _ => h.idle, fun ho => by simp [h.closed] at ho, fun _ => ⟨h.idle, h.closed⟩⟩

theorem Fits.rests_of_idle (h : d.Fits p r w ph) (hi : d.mode = .idle) : d.Rests p := by
  refine ⟨h.mem, h.cells, hi, Bool.eq_false_iff.2 fun ho => ?_⟩
  have hw := (h.latch ho).1
  simp [hi] at hw

theorem Fits.rests (h : d.Fits p r w ph) (hm : modeAt r ph = .idle) : d.Rests p :=
  h.rests_of_idle (h.mode.elim id fun he => he.trans hm)

theorem Fits.rests_of_oracle (h : d.Fits p r w ph) (ho : p.device = .oracle) : d.Rests p := h.rests_of_idle (h.oracle ho).1

/-- Latched bytes stand open only where data bytes of a write are sent. -/
theorem Fits.closed (h : d.Fits p r w ph) (hp : ph ≠ .tData ∧ ph ≠ .tStop ∨ w = false) : bankOpenLatch d = false := by
  refine Bool.eq_false_iff.2 fun ho => ?_
  obtain ⟨_, hph, hw⟩ := h.latch ho
  rcases hp with ⟨h1, h2⟩ | hf
  · exact hph.elim h1 h2
  · simp [hf] at hw

theorem Fits.not_busy (h : d.Fits p r w ph) (hm : d.mode ≠ .idle) : d.busy = false := Bool.eq_false_iff.2 fun hb => hm (h.cycle hb)

theorem Fits.onStart (h : d.Fits p r w ph) (hc : bankOpenLatch d = false) : (bankOnStart d).Rests p := ⟨h.mem, h.cells, rfl, hc⟩

/-- After a stop condition every bank rests: latched bytes are in a write cycle now (R76). -/
theorem Fits.onStop (h : d.Fits p r w ph) : (bankOnStop d).Rests p :=
  ⟨h.mem, h.cells, rfl, by cases hb : d.busy <;> cases hl : d.latch.isEmpty <;> simp [bankOnStop, bankOpenLatch, hb, hl]⟩

/-- A bank in no write cycle, with nothing open in its latch, fits the phase that its mode belongs to. -/
theorem Fits.of_mode (hmem : memWf p.eeCapacity d.mem = true) (hcells : ∀ c ∈ d.latch, c.1 < p.eeCapacity)
    (hm : d.mode = modeAt r ph) (hb : d.busy = false) (hc : bankOpenLatch d = false) (hd : p.device = .reference) :
    d.Fits p r w ph := by
  refine ⟨hmem, hcells, .inr hm, fun hb' => ?_, fun ho => ?_, fun ho => ?_⟩
  · exact absurd (hb.symm.trans hb') (by decide)
  · exact absurd (hc.symm.trans ho) (by decide)
  · exact absurd (hd.symm.trans ho) (by decide)

/-- The high address byte (R75). -/
theorem Fits.onAddrHi (h : d.Fits p r w .tAddrHi) (hd : p.device = .reference) (x : Byte) :
    (bankOnByte p.eeCapacity x d).Fits p r w .tAddrLo := by
  by_cases hi : d.mode = .idle
  · rw [bankOnByte_of_idle hi]
    exact (h.rests_of_idle hi).fits
  · have hb := h.not_busy hi
    have hm : d.mode = .writeAddr0 := h.mode.resolve_left hi
    have hc := h.closed (.inl (by decide))
    have hstep : bankOnByte p.eeCapacity x d = { d with ptr := x ++ d.ptr.extractLsb' 0 8, mode := .writeAddr1 } := by
      simp [bankOnByte, hb, hm]
    rw [hstep]
    exact .of_mode h.mem h.cells rfl hb hc hd

/-- The low address byte, which empties the latch (R75). -/
theorem Fits.onAddrLo (h : d.Fits p r w .tAddrLo) (hd : p.device = .reference) (x : Byte) (hn : modeAt r next = .writeData) :
    (bankOnByte p.eeCapacity x d).Fits p r w next := by
  by_cases hi : d.mode = .idle
  · rw [bankOnByte_of_idle hi]
    exact (h.rests_of_idle hi).fits
  · have hb := h.not_busy hi
    have hm : d.mode = .writeAddr1 := h.mode.resolve_left hi
    have hstep : bankOnByte p.eeCapacity x d =
        { d with ptr := d.ptr.extractLsb' 8 8 ++ x, mode := .writeData, latch := [] } := by simp [bankOnByte, hb, hm]
    rw [hstep]
    exact .of_mode h.mem (by simp) hn.symm hb (by simp [bankOpenLatch]) hd

/-- A data byte of a write goes to the latch below EE_CAPACITY (R75). -/
theorem Fits.onDatum (h : d.Fits p false true .tData) (hd : p.device = .reference) (hcap : 0 < p.eeCapacity) (x : Byte)
    (hn : next = .tData ∨ next = .tStop) : (bankOnByte p.eeCapacity x d).Fits p false true next := by
  by_cases hi : d.mode = .idle
  · rw [bankOnByte_of_idle hi]
    exact (h.rests_of_idle hi).fits
  · have hb := h.not_busy hi
    have hm : d.mode = .writeData := h.mode.resolve_left hi
    have hstep : bankOnByte p.eeCapacity x d = { d with
        latch := d.latch ++ [(d.ptr.toNat % p.eeCapacity, x)]
        ptr := d.ptr.extractLsb' 7 9 ++ (d.ptr.extractLsb' 0 7 + 1#7) } := by simp [bankOnByte, hb, hm]
    rw [hstep]
    refine ⟨h.mem, fun c hc => ?_, .inr ?_, fun hb' => ?_, fun _ => ⟨hm, hn, rfl⟩, fun ho => ?_⟩
    · rcases List.mem_append.1 hc with hc | hc
      · exact h.cells c hc
      · rw [List.mem_singleton.1 hc]
        exact Nat.mod_lt _ hcap
    · rcases hn with rfl | rfl <;> exact hm
    · exact absurd (hb.symm.trans hb') (by decide)
    · exact absurd (hd.symm.trans ho) (by decide)

/-- A read byte: after ACK the bank goes on reading, after NACK it waits (R77). -/
theorem Fits.onRead (h : d.Fits p true w .tData) (hd : p.device = .reference) (m : Ack) :
    (bankAfterRead m d).Fits p true w (if m = .ack then .tData else .tStop) := by
  by_cases hi : d.mode = .idle
  · rw [bankAfterRead_of_idle hi]
    exact (h.rests_of_idle hi).fits
  · have hb := h.not_busy hi
    have hm : d.mode = .read := h.mode.resolve_left hi
    have hc : bankOpenLatch d = false := Bool.eq_false_iff.2 fun ho => by simpa [hm] using (h.latch ho).1
    have hstep : bankAfterRead m d = { d with ptr := d.ptr + 1, mode := if m = .ack then .read else .idle } := by
      simp [bankAfterRead, hm]
    rw [hstep]
    exact .of_mode h.mem h.cells (by cases m <;> rfl) hb hc hd

/-- The end of a write cycle (R76). -/
theorem Fits.onCommit (h : d.Fits p r w ph) : (bankCommit d).Fits p r w ph := by
  unfold bankCommit
  split
  · next hb =>
    exact Rests.fits ⟨memWf_memWriteAll d.latch h.mem h.cells, by simp, h.cycle hb, by simp [bankOpenLatch]⟩
  · exact h

/-- A reset edge leaves every bank at rest (R37; log 15). -/
theorem Fits.onCut (h : d.Fits p r w ph) (draw : Nat) : (bankCut draw d).Rests p := by
  unfold bankCut
  split
  · next hi => exact h.rests_of_idle hi
  · refine ⟨h.mem, fun c hc => h.cells c (List.mem_of_mem_take hc), rfl, ?_⟩
    simp [bankOpenLatch]

end BankDev

/-! ## The four banks at a bus primitive -/

/-- A control byte that a present, free bank hears is acknowledged (R74). -/
theorem busWrite_answer_control {x : Byte} {s : State} (hd : s.params.device = .reference) (hs : s.blk.bus = .started) :
    (busWrite x s).1 = if controlAcked s.params s.banks x then .ack else .nack := by
  simp only [busWrite, busAnswer, hd, hs, devControl]
  split <;> rfl

/-- A read on the reference device is each bank's own `bankAfterRead`: a bank that does not drive the bus does not move (R77). -/
theorem busRead_bank_reference {m : Ack} {s : State} (hd : s.params.device = .reference) (b : Bank) :
    bankAt (busRead m s).2.banks b = bankAfterRead m (bankAt s.banks b) := by
  show bankAt (busDatum m s).2.banks b = _
  unfold busDatum
  rw [hd]
  dsimp only
  split
  · simp
  · next hn =>
    have hm : (bankAt s.banks b).mode ≠ .read := by
      have hall := List.find?_eq_none.1 hn b (by rcases bank_cases b with rfl | rfl | rfl | rfl <;> simp)
      simpa using hall
    simp [bankAfterRead, hm]

theorem busRead_bank_oracle {m : Ack} {s : State} (hd : s.params.device = .oracle) (b : Bank) :
    bankAt (busRead m s).2.banks b = bankAt s.banks b := by
  rcases busRead_bank m s b with h | ⟨hr, _⟩
  · exact h
  · exact absurd (hd.symm.trans hr) (by decide)

section
variable {x : Byte} {s : State} {r w : Bool} {ph next : EePhase}

/-- After a control byte every bank fits the phase whose mode its bit 0 gives (R74). -/
theorem busWrite_control_fits (hs : s.blk.bus = .started) (hv : ∀ b, (bankAt s.banks b).Rests s.params)
    (hm : modeAt r next = if x.getLsbD 0 then .read else .writeAddr0) (b : Bank) :
    (bankAt (busWrite x s).2.banks b).Fits s.params r w next := by
  rcases busWrite_bank x s b with ⟨hb, _⟩ | ⟨hd, _, hc, rfl, hb⟩ | ⟨_, hn, _⟩
  · rw [hb]
    exact (hv b).fits
  · rw [hb, ← hm]
    exact .of_mode (hv _).mem (hv _).cells rfl (controlAcked_bank hc) (hv _).closed hd
  · exact absurd hs hn

/-- After a control byte that nobody acknowledges every bank rests (R74). -/
theorem busWrite_nack_rests (hs : s.blk.bus = .started) (hv : ∀ b, (bankAt s.banks b).Rests s.params)
    (hn : (busWrite x s).1 = .nack) (b : Bank) : (bankAt (busWrite x s).2.banks b).Rests s.params := by
  rcases busWrite_bank x s b with ⟨hb, _⟩ | ⟨hd, _, hc, _⟩ | ⟨_, hn, _⟩
  · rw [hb]
    exact hv b
  · rw [busWrite_answer_control hd hs, if_pos hc] at hn
    cases hn
  · exact absurd hs hn

/-- After a byte of the open transaction every bank fits the next phase, if the byte takes each bank there (R75). -/
theorem busWrite_byte_fits (hs : s.blk.bus ≠ .started) (hv : ∀ b, (bankAt s.banks b).Fits s.params r w ph)
    (hstep : ∀ d : BankDev, d.Fits s.params r w ph → s.params.device = .reference →
      (bankOnByte s.params.eeCapacity x d).Fits s.params r w next) (b : Bank) :
    (bankAt (busWrite x s).2.banks b).Fits s.params r w next := by
  rcases busWrite_bank x s b with ⟨hb, ho | ⟨hst, _⟩⟩ | ⟨_, hst, _⟩ | ⟨hd, _, hb⟩
  · rw [hb]
    exact ((hv b).rests_of_oracle ho).fits
  · exact absurd hst hs
  · exact absurd hst hs
  · rw [hb]
    exact hstep _ (hv b) hd

theorem busRead_fits (m : Ack) (hv : ∀ b, (bankAt s.banks b).Fits s.params true w .tData) (b : Bank) :
    (bankAt (busRead m s).2.banks b).Fits s.params true w (if m = .ack then .tData else .tStop) := by
  cases hd : s.params.device with
  | reference => rw [busRead_bank_reference hd]; exact (hv b).onRead hd m
  | oracle => rw [busRead_bank_oracle hd]; exact ((hv b).rests_of_oracle hd).fits

theorem busStop_rests (hv : ∀ b, (bankAt s.banks b).Fits s.params r w ph) (b : Bank) :
    (bankAt (busStop s).banks b).Rests s.params := by
  rw [busStop_bank]
  cases hd : s.params.device with
  | reference => exact (hv b).onStop
  | oracle => exact (hv b).rests_of_oracle hd

end

/-! ## The parts of a coherent state -/

/-- Coherence, with the banks' clauses gathered bank by bank. -/
theorem coherent_iff (s : State) : s.Coherent ↔
    legalSelect s.blk.devsel ∧ (0 < s.params.eeCapacity ∧ s.params.eeCapacity ≤ 65536) ∧
    memWf Config.eeMaxLen s.blk.buf = true ∧ s.SeqOk ∧ (controlPhase s.blk.ee.phase = true ↔ s.blk.bus = .started) ∧
    ∀ b, (bankAt s.banks b).Fits s.params s.reading s.writing s.blk.ee.phase := by
  constructor
  · rintro ⟨hsel, ⟨hcap, hbuf, hmem, hcells⟩, hseq, ⟨hctl, hmode, hcyc, hlatch, hor⟩⟩
    exact ⟨hsel, hcap, hbuf, hseq, hctl,
      fun b => ⟨hmem b, hcells b, hmode b, hcyc b, hlatch b, fun ho => hor ho b⟩⟩
  · rintro ⟨hsel, hcap, hbuf, hseq, hctl, hv⟩
    exact ⟨hsel, ⟨hcap, hbuf, fun b => (hv b).mem, fun b => (hv b).cells⟩, hseq,
      ⟨hctl, fun b => (hv b).mode, fun b => (hv b).cycle, fun b => (hv b).latch, fun ho b => (hv b).oracle ho⟩⟩

/-- Where the EEPROM sequencer may stand in the operation `op` (R28 to R31): `State.SeqOk`'s clauses about it; `SeqOk.stands` and
`seqOk_of_stands` tie it to them. -/
structure EeSeq.Stands (op : BitVec 3) (e : EeSeq) : Prop where
  byteRead : op = 2 → e.phase ≠ .idle
  blockRead : op = 3 →
    (e.phase = .idle ↔ e.len = 0) ∧
    (e.phase = .tData → e.done.toNat < e.len.toNat) ∧
    (e.phase ≠ .tData → e.phase ≠ .tStop → e.done = 0)
  byteWrite : op = 4 → e.phase ≠ .idle
  blockWrite : op = 5 →
    (e.phase = .idle ↔ e.len = 0) ∧ e.done.toNat + e.len.toNat ≤ Config.eeMaxLen ∧ e.chunk.toNat ≤ pageChunk e.addr e.len
  writePhase : op = 4 ∨ op = 5 → e.phase ≠ .tRstart ∧ e.phase ≠ .tCtrlR ∧
    (e.phase ≠ .idle → e.phase ≠ .pollStart → e.phase ≠ .tStop → e.chunk ≠ 0)

theorem reading_eq_true {s : State} : s.reading = true ↔ s.blk.op = 2 ∨ s.blk.op = 3 := by simp [State.reading]
theorem writing_eq_true {s : State} : s.writing = true ↔ s.blk.op = 4 ∨ s.blk.op = 5 := by simp [State.writing]

theorem State.SeqOk.stands {s : State} (h : s.SeqOk) (hb : s.blk.busy = true) : s.blk.ee.Stands s.blk.op :=
  ⟨h.byteRead hb, h.blockRead hb, h.byteWrite hb, h.blockWrite hb, fun ho => h.writePhase hb (writing_eq_true.2 ho)⟩

/-- An EEPROM operation in progress. -/
def State.eeRuns (s : State) : Prop := s.blk.busy = true ∧ (s.reading = true ∨ s.writing = true)

/-- The opcodes of the four EEPROM operations are none of the other three. -/
theorem State.eeRuns.op_ne {s : State} (h : s.eeRuns) : s.blk.op ≠ 0 ∧ s.blk.op ≠ 6 ∧ s.blk.op ≠ 7 := by
  rcases h.2 with hr | hw
  · rcases reading_eq_true.1 hr with h | h <;> simp [h]
  · rcases writing_eq_true.1 hw with h | h <;> simp [h]

theorem seqOk_of_stands {s : State} (h : s.eeRuns) (htx : s.blk.tx.phase = .idle) (hoff : s.blk.tx.irTxEn = false)
    (he : s.blk.ee.Stands s.blk.op) : s.SeqOk where
  named _ := h.op_ne.1
  eeOwner _ := h
  txOwner hne := absurd htx hne
  carrierOff _ := hoff
  byteRead _ := he.byteRead
  blockRead _ := he.blockRead
  byteWrite _ := he.byteWrite
  blockWrite _ := he.blockWrite
  writePhase _ hw := he.writePhase (writing_eq_true.1 hw)
  transmit _ ho := absurd ho h.op_ne.2.1
  receive _ ho := absurd ho h.op_ne.2.2

/-- Nothing in progress and every sequencer IDLE (R31). -/
theorem seqOk_of_idle {s : State} (hb : s.blk.busy = false) (hee : s.blk.ee.phase = .idle) (htx : s.blk.tx.phase = .idle)
    (hoff : s.blk.tx.irTxEn = false) : s.SeqOk := by
  constructor <;> simp [hb, hee, htx, hoff]

/-- EESEL, IRTX or IRRX in progress, with the EEPROM sequencer IDLE. -/
theorem seqOk_of_other {s : State} (hop : s.blk.op = 1 ∨ s.blk.op = 6 ∨ s.blk.op = 7) (hee : s.blk.ee.phase = .idle)
    (htx : s.blk.tx.phase ≠ .idle → s.blk.busy = true ∧ s.blk.op = 6)
    (hoff : s.blk.tx.phase = .idle → s.blk.tx.irTxEn = false)
    (ht : s.blk.busy = true → s.blk.op = 6 → s.blk.tx.phase ≠ .idle ∧ s.blk.tx.rep.toNat < Config.txRepeats ∧
      (s.blk.tx.phase = .bitOn ∨ s.blk.tx.phase = .bitGap → s.blk.tx.bit.toNat < Config.frameBits))
    (hr : s.blk.busy = true → s.blk.op = 7 → s.blk.rx.bitCnt.toNat < Config.frameBits) : s.SeqOk where
  named _ := by rcases hop with h | h | h <;> simp [h]
  eeOwner hne := absurd hee hne
  txOwner := htx
  carrierOff := hoff
  byteRead _ ho := by simp [ho] at hop
  blockRead _ ho := by simp [ho] at hop
  byteWrite _ ho := by simp [ho] at hop
  blockWrite _ ho := by simp [ho] at hop
  writePhase _ hw := by rcases writing_eq_true.1 hw with ho | ho <;> simp [ho] at hop
  transmit := ht
  receive := hr

namespace State.Coherent

variable {s t : State}

theorem fits (h : s.Coherent) (b : Bank) : (bankAt s.banks b).Fits s.params s.reading s.writing s.blk.ee.phase :=
  ((coherent_iff s).1 h).2.2.2.2.2 b

theorem started_iff (h : s.Coherent) : controlPhase s.blk.ee.phase = true ↔ s.blk.bus = .started := h.bus.control

theorem tx_idle (h : s.Coherent) (hn : ¬(s.blk.busy = true ∧ s.blk.op = 6)) : s.blk.tx.phase = .idle :=
  by_contra fun hne => hn (h.seq.txOwner hne)

theorem ee_idle (h : s.Coherent) (hn : ¬s.eeRuns) : s.blk.ee.phase = .idle := by_contra fun hne => hn (h.seq.eeOwner hne)

theorem ee_idle_of_op (h : s.Coherent) (hop : s.blk.op = 1 ∨ s.blk.op = 6 ∨ s.blk.op = 7) : s.blk.ee.phase = .idle := by
  refine h.ee_idle fun ⟨_, hrw⟩ => ?_
  simp only [reading_eq_true, writing_eq_true] at hrw
  rcases hop with h | h | h <;> simp [h] at hrw

/-- Coherence leans neither on ILL, on the button, on the traces, on RESULT nor on what surrounds the block. -/
theorem congr (h : s.Coherent) {ill flag : Bool} {count : BitVec 7}
    (hb : t.blk = { s.blk with ill := ill, btnFlag := flag, btnCount := count })
    (hv : t.banks = s.banks) (hp : t.params = s.params) : t.Coherent := by
  obtain ⟨tb, tv, te, tp⟩ := t
  dsimp only at hb hv hp
  subst hb hv hp
  obtain ⟨hsel, ⟨m1, m2, m3, m4⟩, ⟨q1, q2, q3, q4, q5, q6, q7, q8, q9, q10, q11⟩, ⟨b1, b2, b3, b4, b5⟩⟩ := h
  exact ⟨hsel, ⟨m1, m2, m3, m4⟩, ⟨q1, q2, q3, q4, q5, q6, q7, q8, q9, q10, q11⟩, ⟨b1, b2, b3, b4, b5⟩⟩

/-- From a state whose EEPROM sequencer is IDLE: the bus and the banks rest, and stay so where no step of the sequencer has moved
them, whatever operation begins, runs or ends beside them. -/
theorem beside (h : s.Coherent) (hi : s.blk.ee.phase = .idle) (hsel : legalSelect t.blk.devsel)
    (hbuf : memWf Config.eeMaxLen t.blk.buf = true) (hph : t.blk.ee.phase = .idle ∨ t.blk.ee.phase = .pollStart)
    (hbus : t.blk.bus = s.blk.bus) (hv : t.banks = s.banks) (hp : t.params = s.params) (hseq : t.SeqOk) : t.Coherent := by
  refine (coherent_iff t).2 ⟨hsel, hp ▸ h.mem.capacity, hbuf, hseq, ?_, fun b => ?_⟩
  · rw [hbus, ← h.started_iff, hi]
    rcases hph with hph | hph <;> simp [hph, controlPhase]
  · rw [hv, hp]
    exact ((h.fits b).rests (by rw [hi]; rfl)).fits

/-- One step inside an EEPROM operation: the sequencer, the wires, their trace and EE_BUF move, and nothing else of the block. -/
theorem during (h : s.Coherent) (hr : s.eeRuns) {e : EeSeq} {bus : BusState} {tr : List BusEvent} {m : Memory}
    (hb : t.blk = { s.blk with ee := e, bus := bus, busTrace := tr, buf := m }) (hp : t.params = s.params)
    (hm : memWf Config.eeMaxLen m = true) (he : e.Stands s.blk.op) (hc : controlPhase e.phase = true ↔ bus = .started)
    (hv : ∀ b, (bankAt t.banks b).Fits s.params s.reading s.writing e.phase) : t.Coherent := by
  have htx : s.blk.tx.phase = .idle := h.tx_idle fun ho => hr.op_ne.2.1 ho.2
  have hread : t.reading = s.reading := by simp [State.reading, hb]
  have hwrite : t.writing = s.writing := by simp [State.writing, hb]
  refine (coherent_iff t).2 ⟨by rw [hb]; exact h.select, hp ▸ h.mem.capacity, by rw [hb]; exact hm, ?_, by rw [hb]; exact hc, ?_⟩
  · refine seqOk_of_stands ⟨?_, ?_⟩ ?_ ?_ ?_
    · rw [hb]; exact hr.1
    · rw [hread, hwrite]; exact hr.2
    · rw [hb]; exact htx
    · rw [hb]; exact h.seq.carrierOff htx
    · rw [hb]; exact he
  · rw [hp, hread, hwrite, hb]
    exact hv

/-- The end of an EEPROM operation, every bank at rest. -/
theorem ended (h : s.Coherent) (hr : s.eeRuns) {e : EeSeq} {v : Half} {bus : BusState} {tr : List BusEvent}
    (hb : t.blk = { s.blk with busy := false, result := v, ee := e, bus := bus, busTrace := tr }) (hp : t.params = s.params)
    (he : e.phase = .idle) (hbus : bus ≠ .started) (hv : ∀ b, (bankAt t.banks b).Rests s.params) : t.Coherent := by
  have htx : s.blk.tx.phase = .idle := h.tx_idle fun ho => hr.op_ne.2.1 ho.2
  refine (coherent_iff t).2 ⟨by rw [hb]; exact h.select, hp ▸ h.mem.capacity, by rw [hb]; exact h.mem.buffer, ?_, ?_, ?_⟩
  · refine seqOk_of_idle (by rw [hb]) (by rw [hb]; exact he) (by rw [hb]; exact htx) ?_
    rw [hb]; exact h.seq.carrierOff htx
  · rw [hb]
    simp [he, hbus, controlPhase]
  · intro b
    rw [hp]
    exact (hv b).fits

end State.Coherent

end Sys2Proof.Machine
end


section
/-! SUPPORT. Every command's step keeps coherence: the shared phases of an EEPROM transaction first, then the engines one by one, then
acceptance. -/

namespace Sys2Proof.Machine

/-! ## Where the EEPROM sequencer may move -/

namespace EeSeq.Stands

variable {op : BitVec 3} {e : EeSeq} {next : EePhase}

theorem len_ne_zero (h : e.Stands op) (ho : op = 3 ∨ op = 5) (hp : e.phase ≠ .idle) : e.len ≠ 0 := by
  rcases ho with ho | ho
  · exact fun hl => hp ((h.blockRead ho).1.2 hl)
  · exact fun hl => hp ((h.blockWrite ho).1.2 hl)

/-- In a read the sequencer may go from a phase before the data to every phase up to the data. -/
theorem moveRead (h : e.Stands op) (ho : op = 2 ∨ op = 3) (hi : e.phase ≠ .idle) (hd : e.phase ≠ .tData ∧ e.phase ≠ .tStop)
    (hn : next ≠ .idle ∧ next ≠ .tStop) : { e with phase := next }.Stands op where
  byteRead _ := hn.1
  blockRead h3 := by
    have hdone := (h.blockRead h3).2.2 hd.1 hd.2
    have hlen : e.len ≠ 0 := h.len_ne_zero (.inl h3) hi
    have hpos : 0 < e.len.toNat := Nat.pos_of_ne_zero fun h0 => hlen (BitVec.eq_of_toNat_eq (by simpa using h0))
    exact ⟨iff_of_false hn.1 hlen, fun _ => by simpa [hdone] using hpos, fun _ _ => hdone⟩
  byteWrite h4 := by simp [h4] at ho
  blockWrite h5 := by simp [h5] at ho
  writePhase hw := by rcases hw with hw | hw <;> simp [hw] at ho

/-- In a write the sequencer may go from every phase to every phase but the two that only a read has, with EE_CHUNK counting the bytes
to come. -/
theorem moveWrite (h : e.Stands op) (ho : op = 4 ∨ op = 5) (hi : e.phase ≠ .idle) (hn : next ≠ .idle)
    (hr : next ≠ .tRstart ∧ next ≠ .tCtrlR) (hc : next = .pollStart ∨ e.chunk ≠ 0) : { e with phase := next }.Stands op where
  byteRead h2 := by simp [h2] at ho
  blockRead h3 := by simp [h3] at ho
  byteWrite _ := hn
  blockWrite h5 := ⟨iff_of_false hn (h.len_ne_zero (.inr h5) hi), (h.blockWrite h5).2⟩
  writePhase _ := ⟨hr.1, hr.2, fun _ hp _ => hc.resolve_left hp⟩

theorem chunk_ne_zero (h : e.Stands op) (ho : op = 4 ∨ op = 5) (hp : e.phase ≠ .idle ∧ e.phase ≠ .pollStart ∧ e.phase ≠ .tStop) :
    e.chunk ≠ 0 := (h.writePhase ho).2.2 hp.1 hp.2.1 hp.2.2

/-- EE_CHUNK may be loaded with the length of the chunk, or with 1 in EEWRB (R150, R152). -/
theorem loadChunk (h : e.Stands op) (ho : op = 4 ∨ op = 5) {c : BitVec 7} (hc : c ≠ 0)
    (h5 : op = 5 → c.toNat ≤ pageChunk e.addr e.len) : { e with chunk := c }.Stands op where
  byteRead h2 := by simp [h2] at ho
  blockRead h3 := by simp [h3] at ho
  byteWrite := h.byteWrite
  blockWrite ho5 := ⟨(h.blockWrite ho5).1, (h.blockWrite ho5).2.1, h5 ho5⟩
  writePhase hw := ⟨(h.writePhase hw).1, (h.writePhase hw).2.1, fun _ _ _ => hc⟩

/-- A data byte of a write: EE_CHUNK counts down, and after the last byte comes the stop (R150). -/
theorem sendDatum (h : e.Stands op) (ho : op = 4 ∨ op = 5) (hp : e.phase = .tData) (hc : e.chunk ≠ 0) :
    { e with chunk := e.chunk - 1, phase := if e.chunk = 1 then .tStop else .tData }.Stands op where
  byteRead h2 := by simp [h2] at ho
  blockRead h3 := by simp [h3] at ho
  byteWrite _ := by dsimp only; split <;> decide
  blockWrite h5 := by
    obtain ⟨_, hsum, hle⟩ := h.blockWrite h5
    have hpos : e.chunk.toNat ≠ 0 := fun h0 => hc (BitVec.eq_of_toNat_eq (by simpa using h0))
    have hlt := e.chunk.isLt
    have hone : (1 : BitVec 7).toNat = 1 := rfl
    refine ⟨iff_of_false ?_ (h.len_ne_zero (.inr h5) (by simp [hp])), hsum, ?_⟩
    · dsimp only
      split <;> decide
    · simp only [BitVec.toNat_sub, hone]
      omega
  writePhase _ := by
    dsimp only
    split
    · simp
    · next h1 =>
      refine ⟨by decide, by decide, fun _ _ _ h0 => h1 ?_⟩
      exact sub_eq_zero.1 h0

end EeSeq.Stands

/-! ## The phases the transactions share -/

/-- A legal select code asks for the write phase (R25, R63). -/
theorem legalSelect_bit0 {c : Byte} (h : legalSelect c) : c.getLsbD 0 = false := by
  rcases h with rfl | rfl | rfl | rfl <;> rfl

theorem readCode_bit0 (c : Byte) : (readCode c).getLsbD 0 = true := by simp [readCode]

theorem modeAt_controlPhase {r : Bool} {ph : EePhase} (h : controlPhase ph = true) : modeAt r ph = .idle := by
  revert h
  cases ph <;> simp [controlPhase, modeAt]

section
variable {s t : State} {next : EePhase} {x : Byte}

theorem State.Coherent.setEnv (h : s.Coherent) (e : Env) : (s.setEnv e).Coherent := h.congr rfl rfl rfl

theorem State.Coherent.not_started (h : s.Coherent) (hc : controlPhase s.blk.ee.phase = false) : s.blk.bus ≠ .started :=
  fun hs => absurd (hc.symm.trans (h.started_iff.2 hs)) (by decide)

/-- A start phase outside the data leaves every bank at rest. -/
theorem State.Coherent.startPhase (h : s.Coherent) (hr : s.eeRuns) (hopen : s.blk.ee.phase ≠ .tData ∧ s.blk.ee.phase ≠ .tStop)
    (hn : controlPhase next = true) (he : { s.blk.ee with phase := next }.Stands s.blk.op) (ht : startPhase next s = .next t) :
    t.Coherent := by
  obtain ⟨hb, _, hp, hv⟩ := startPhase_next ht
  refine h.during hr hb hp h.mem.buffer he (by simp [hn]) fun b => ?_
  rw [hv]
  split
  · exact ((h.fits b).onStart ((h.fits b).closed (.inl hopen))).fits
  · next hd =>
    refine ((h.fits b).rests_of_oracle ?_).fits
    cases hd' : s.params.device with
    | reference => exact absurd hd' hd
    | oracle => rfl

/-- Before the answer to a control byte every bank rests, and the last symbol was a start condition. -/
theorem State.Coherent.at_control (h : s.Coherent) (hc : controlPhase s.blk.ee.phase = true) :
    s.blk.bus = .started ∧ ∀ b, (bankAt s.banks b).Rests s.params :=
  ⟨h.started_iff.1 hc, fun b => (h.fits b).rests (modeAt_controlPhase hc)⟩

/-- The control byte of a transaction, whose answer is ignored (R135). -/
theorem State.Coherent.controlByte (h : s.Coherent) (hr : s.eeRuns) (hc : controlPhase s.blk.ee.phase = true)
    (hx : modeAt s.reading next = if x.getLsbD 0 then .read else .writeAddr0) (hn : controlPhase next = false)
    (he : { s.blk.ee with phase := next }.Stands s.blk.op) : (bytePhase x next s).Coherent := by
  obtain ⟨hs, hv⟩ := h.at_control hc
  exact h.during hr (bytePhase_blk x next s) (by simp) h.mem.buffer he (by simp [hn]) fun b => busWrite_control_fits hs hv hx b

/-- An address byte. -/
theorem State.Coherent.addressByte (h : s.Coherent) (hr : s.eeRuns) (hc : controlPhase s.blk.ee.phase = false)
    (hn : controlPhase next = false) (he : { s.blk.ee with phase := next }.Stands s.blk.op)
    (hstep : ∀ d : BankDev, d.Fits s.params s.reading s.writing s.blk.ee.phase → s.params.device = .reference →
      (bankOnByte s.params.eeCapacity x d).Fits s.params s.reading s.writing next) : (bytePhase x next s).Coherent := by
  exact h.during hr (bytePhase_blk x next s) (by simp) h.mem.buffer he (by simp [hn])
    (busWrite_byte_fits (h.not_started hc) h.fits hstep)

theorem State.eeRuns.stands (hr : s.eeRuns) (h : s.Coherent) : s.blk.ee.Stands s.blk.op := h.seq.stands hr.1

/-- From the poll's control byte an operation may go on, or back to the start condition. -/
theorem EeSeq.Stands.movePoll {op : BitVec 3} {e : EeSeq} (h : e.Stands op) (ho : (op = 2 ∨ op = 3) ∨ (op = 4 ∨ op = 5))
    (hp : e.phase = .pollCtrl) (hn : next = .tAddrHi ∨ next = .tStart ∨ next = .pollStart) :
    { e with phase := next }.Stands op := by
  rcases ho with ho | ho
  · exact h.moveRead ho (by simp [hp]) (by simp [hp]) (by rcases hn with rfl | rfl | rfl <;> simp)
  · exact h.moveWrite ho (by simp [hp]) (by rcases hn with rfl | rfl | rfl <;> simp)
      (by rcases hn with rfl | rfl | rfl <;> simp) (.inr (h.chunk_ne_zero ho (by simp [hp])))

theorem State.eeRuns.opcode (hr : s.eeRuns) : (s.blk.op = 2 ∨ s.blk.op = 3) ∨ (s.blk.op = 4 ∨ s.blk.op = 5) :=
  hr.2.imp reading_eq_true.1 writing_eq_true.1

/-- The poll (R131): an ACK has called a bank, a NACK none. -/
theorem State.Coherent.pollCtrl (h : s.Coherent) (hr : s.eeRuns) (hp : s.blk.ee.phase = .pollCtrl) : (pollCtrl s).Coherent := by
  obtain ⟨hs, hv⟩ := h.at_control (by rw [hp]; rfl)
  refine h.during hr (pollCtrl_blk s) (by simp) h.mem.buffer ((hr.stands h).movePoll hr.opcode hp ?_) ?_ fun b => ?_
  · split
    · split <;> simp
    · simp
  · split
    · split <;> simp [controlPhase]
    · simp [controlPhase]
  · rw [pollCtrl_banks]
    split
    · refine busWrite_control_fits hs hv ?_ b
      rw [legalSelect_bit0 h.select]
      split <;> rfl
    · next ha =>
      refine (busWrite_nack_rests hs hv ?_ b).fits
      cases hans : (busWrite s.blk.devsel s).1 with
      | ack => exact absurd hans ha
      | nack => rfl

/-! ## Reads -/

/-- A read before its data keeps coherence at every phase, whichever read it is (R132). -/
theorem memReadStep_coherent {n i : Nat} {keep : Byte → State → State} {finish : State → State} {idle : Result} (h : s.Coherent)
    (hr : s.eeRuns) (hread : s.reading = true)
    (hph : s.blk.ee.phase ≠ .idle ∧ s.blk.ee.phase ≠ .tData ∧ s.blk.ee.phase ≠ .tStop)
    (ht : memReadStep n i keep finish idle s = .next t) : t.Coherent := by
  have hmove : ∀ next : EePhase, next ≠ .idle ∧ next ≠ .tStop → { s.blk.ee with phase := next }.Stands s.blk.op := fun next hn =>
    (hr.stands h).moveRead (reading_eq_true.1 hread) hph.1 hph.2 hn
  unfold memReadStep at ht
  split at ht
  case h_1 hp => exact absurd hp hph.1
  case h_2 => exact h.startPhase hr hph.2 rfl (hmove _ (by decide)) ht
  case h_3 hp => cases ht; exact h.pollCtrl hr hp
  case h_4 => exact h.startPhase hr hph.2 rfl (hmove _ (by decide)) ht
  case h_5 hp =>
    cases ht
    exact h.controlByte hr (by rw [hp]; rfl) (by rw [legalSelect_bit0 h.select]; rfl) rfl (hmove _ (by decide))
  case h_6 hp =>
    cases ht
    exact h.addressByte hr (by rw [hp]; rfl) rfl (hmove _ (by decide)) fun d hd href => by
      rw [hp] at hd; exact hd.onAddrHi href _
  case h_7 hp =>
    cases ht
    exact h.addressByte hr (by rw [hp]; rfl) rfl (hmove _ (by decide)) fun d hd href => by
      rw [hp] at hd; exact hd.onAddrLo href _ rfl
  case h_8 => exact h.startPhase hr hph.2 rfl (hmove _ (by decide)) ht
  case h_9 hp =>
    cases ht
    exact h.controlByte hr (by rw [hp]; rfl) (by rw [readCode_bit0, hread]; rfl) rfl (hmove _ (by decide))
  case h_10 hp => exact absurd hp hph.2.1
  case h_11 hp => exact absurd hp hph.2.2

/-- A read byte leaves every bank where the next phase wants it (R77). -/
theorem State.Coherent.busRead_fits (h : s.Coherent) (hread : s.reading = true) (hp : s.blk.ee.phase = .tData) (m : Ack) (b : Bank) :
    (bankAt (busRead m s).2.banks b).Fits s.params s.reading s.writing (if m = .ack then .tData else .tStop) := by
  have hf := h.fits
  rw [hread, hp] at hf
  rw [hread]
  exact Machine.busRead_fits m hf b

/-- The step of EERDB keeps coherence (R133). -/
theorem eerdbStep_coherent (h : s.Coherent) (hb : s.blk.busy = true) (ho : s.blk.op = 2) (ht : eerdbStep s = .next t) :
    t.Coherent := by
  have hread : s.reading = true := reading_eq_true.2 (.inl ho)
  have hr : s.eeRuns := ⟨hb, .inl hread⟩
  have hst := hr.stands h
  cases hp : s.blk.ee.phase
  case idle => exact absurd hp (hst.byteRead ho)
  case tData =>
    simp only [eerdbStep, memReadStep, hp] at ht
    cases ht
    refine h.during hr (e := { s.blk.ee with rdByte := (busRead .nack s).1, phase := .tStop }) (bus := .opened)
      (tr := s.blk.busTrace ++ [.read (busRead .nack s).1 .nack]) ?_ (by simp) h.mem.buffer ?_ (by simp [controlPhase])
      (h.busRead_fits hread hp .nack)
    · simp [State.setPhase, State.setEe, busRead_blk]
    · constructor <;> simp [ho]
  case tStop =>
    simp only [eerdbStep, memReadStep, hp] at ht
    cases ht
    exact h.ended hr (by rw [eeDone_eq]; simp only [busStop_blk]; rfl) (by simp [eeDone_eq]) rfl (by decide) (busStop_rests h.fits)
  all_goals exact memReadStep_coherent h hr hread (by simp [hp]) ht

/-- What EERDBLK does with a byte read: it goes to EE_BUF[EE_DONE], and EE_DONE counts it (R134). -/
def storeDatum (b : Byte) (t : State) : State :=
  (t.bufWrite t.blk.ee.done.toNat b).setEe { (t.bufWrite t.blk.ee.done.toNat b).blk.ee with
    done := (t.bufWrite t.blk.ee.done.toNat b).blk.ee.done + 1 }

theorem storeDatum_blk (b : Byte) (t : State) : (storeDatum b t).blk = { t.blk with
    buf := (t.bufWrite t.blk.ee.done.toNat b).blk.buf, ee := { t.blk.ee with done := t.blk.ee.done + 1 } } := by
  obtain ⟨m, h, _⟩ := bufWrite_spec t.blk.ee.done.toNat b t
  rw [storeDatum, h]
  rfl

@[simp] theorem storeDatum_banks (b : Byte) (t : State) : (storeDatum b t).banks = t.banks := by simp [storeDatum]
@[simp] theorem storeDatum_params (b : Byte) (t : State) : (storeDatum b t).params = t.params := by simp [storeDatum]

theorem eerdblkStep_eq (s : State) : eerdblkStep s = memReadStep s.blk.ee.len.toNat s.blk.ee.done.toNat storeDatum
    (fun t => eeDone t.blk.ee.done (t.blk.ee.done.zeroExtend 16) t)
    (if s.blk.ee.len = 0 then .next (s.done 0) else .fault .noPosition) s := rfl

/-- A byte of EERDBLK, the last one or another (R134). -/
theorem State.Coherent.storeDatum (h : s.Coherent) (hr : s.eeRuns) (ho : s.blk.op = 3) (hp : s.blk.ee.phase = .tData) {m : Ack}
    (hn : next = if m = .ack then .tData else .tStop) (hlen : next = .tData → s.blk.ee.done.toNat + 1 < s.blk.ee.len.toNat) :
    ((storeDatum (busRead m s).1 (busRead m s).2).setPhase next).Coherent := by
  have hread : s.reading = true := reading_eq_true.2 (.inr ho)
  have hne : next ≠ .idle := by rw [hn]; split <;> decide
  have hlen0 : s.blk.ee.len ≠ 0 := (hr.stands h).len_ne_zero (.inl ho) (by simp [hp])
  refine h.during hr (e := { s.blk.ee with done := s.blk.ee.done + 1, phase := next }) (bus := .opened)
    (tr := s.blk.busTrace ++ [.read (busRead m s).1 m])
    (m := ((busRead m s).2.bufWrite (busRead m s).2.blk.ee.done.toNat (busRead m s).1).blk.buf) ?_ (by simp) ?_ ?_ ?_ ?_
  · simp [State.setPhase, State.setEe, storeDatum_blk, busRead_blk]
  · exact bufWrite_wf (by simpa [busRead_blk] using h.mem.buffer)
  · refine ⟨by simp [ho], fun _ => ⟨iff_of_false hne hlen0, fun hd => ?_, fun h1 h2 => ?_⟩, by simp [ho], by simp [ho], by simp [ho]⟩
    · have hlt := hlen hd
      have hl := s.blk.ee.len.isLt
      have hone : (1 : BitVec 7).toNat = 1 := rfl
      simp only [BitVec.toNat_add, hone]
      omega
    · cases m with
      | ack => exact absurd hn h1
      | nack => exact absurd hn h2
  · rw [hn]
    split <;> simp [controlPhase]
  · intro b
    rw [hn, setPhase_banks, storeDatum_banks]
    exact h.busRead_fits hread hp m b

/-- The step of EERDBLK keeps coherence (R134). -/
theorem eerdblkStep_coherent (h : s.Coherent) (hb : s.blk.busy = true) (ho : s.blk.op = 3) (ht : eerdblkStep s = .next t) :
    t.Coherent := by
  have hread : s.reading = true := reading_eq_true.2 (.inr ho)
  have hr : s.eeRuns := ⟨hb, .inl hread⟩
  have hst := hr.stands h
  rw [eerdblkStep_eq] at ht
  cases hp : s.blk.ee.phase
  case idle =>
    simp only [memReadStep, hp, (hst.blockRead ho).1.1 hp] at ht
    cases ht
    exact h.ended hr rfl rfl hp (h.not_started (by rw [hp]; rfl)) fun b => (h.fits b).rests (by rw [hp]; rfl)
  case tData =>
    have hlt : s.blk.ee.done.toNat < s.blk.ee.len.toNat := (hst.blockRead ho).2.1 hp
    simp only [memReadStep, hp, hlt, if_true] at ht
    split at ht
    · next hmore => cases ht; exact h.storeDatum hr ho hp (m := .ack) rfl fun _ => hmore
    · cases ht; exact h.storeDatum hr ho hp (m := .nack) rfl (by simp)
  case tStop =>
    simp only [memReadStep, hp] at ht
    cases ht
    exact h.ended hr (by rw [eeDone_eq]; simp only [busStop_blk]; rfl) (by simp [eeDone_eq]) rfl (by decide) (busStop_rests h.fits)
  all_goals exact memReadStep_coherent h hr hread (by simp [hp]) ht

/-! ## Writes -/

/-- A write before its data keeps coherence at every phase, whichever write it is (R150). -/
theorem memWriteStep_coherent {chunk : Nat} {datum : State → Byte × State} {finish : State → State} {idle : Result}
    (h : s.Coherent) (hr : s.eeRuns) (hwrite : s.writing = true) (hread : s.reading = false)
    (hc : s.blk.ee.phase = .pollStart → BitVec.ofNat 7 chunk ≠ 0 ∧
      (s.blk.op = 5 → (BitVec.ofNat 7 chunk).toNat ≤ pageChunk s.blk.ee.addr s.blk.ee.len))
    (hph : s.blk.ee.phase ≠ .idle ∧ s.blk.ee.phase ≠ .tData ∧ s.blk.ee.phase ≠ .tStop)
    (ht : memWriteStep chunk datum finish idle s = .next t) : t.Coherent := by
  have ho := writing_eq_true.1 hwrite
  have hst := hr.stands h
  have hmove : ∀ next : EePhase, (next ≠ .idle ∧ next ≠ .tRstart ∧ next ≠ .tCtrlR) → s.blk.ee.phase ≠ .pollStart →
      { s.blk.ee with phase := next }.Stands s.blk.op := fun next hn hp =>
    hst.moveWrite ho hph.1 hn.1 hn.2 (.inr (hst.chunk_ne_zero ho ⟨hph.1, hp, hph.2.2⟩))
  unfold memWriteStep at ht
  split at ht
  case h_1 hp => exact absurd hp hph.1
  case h_2 hp =>
    obtain ⟨hc0, hc5⟩ := hc hp
    have hload : { s.blk.ee with chunk := BitVec.ofNat 7 chunk }.Stands s.blk.op := hst.loadChunk ho hc0 hc5
    have hs : (s.setEe { s.blk.ee with chunk := BitVec.ofNat 7 chunk }).Coherent :=
      h.during hr rfl rfl h.mem.buffer hload h.started_iff h.fits
    exact hs.startPhase hr (by simp [hp]) rfl (hload.moveWrite ho hph.1 (by decide) (by decide) (.inr hc0)) ht
  case h_3 hp => cases ht; exact h.pollCtrl hr hp
  case h_4 hp => exact h.startPhase hr hph.2 rfl (hmove _ (by decide) (by simp [hp])) ht
  case h_5 hp =>
    cases ht
    exact h.controlByte hr (by rw [hp]; rfl) (by rw [legalSelect_bit0 h.select]; rfl) rfl (hmove _ (by decide) (by simp [hp]))
  case h_6 hp =>
    cases ht
    exact h.addressByte hr (by rw [hp]; rfl) rfl (hmove _ (by decide) (by simp [hp])) fun d hd href => by
      rw [hp] at hd; exact hd.onAddrHi href _
  case h_7 hp =>
    cases ht
    exact h.addressByte hr (by rw [hp]; rfl) rfl (hmove _ (by decide) (by simp [hp])) fun d hd href => by
      rw [hp] at hd; exact hd.onAddrLo href _ (by rw [hread]; rfl)
  case h_8 => cases ht
  case h_9 => cases ht
  case h_10 hp => exact absurd hp hph.2.1
  case h_11 hp => exact absurd hp hph.2.2

/-- A data byte of a write, whatever the byte is (R150). -/
theorem State.Coherent.writeDatum (h : s.Coherent) (hr : s.eeRuns) (hwrite : s.writing = true) (hread : s.reading = false)
    (hp : s.blk.ee.phase = .tData) (hc : s.blk.ee.chunk ≠ 0) (v : Byte) : (writeDatum v s).Coherent := by
  refine h.during hr (writeDatum_blk v s) (by simp) h.mem.buffer
    ((hr.stands h).sendDatum (writing_eq_true.1 hwrite) hp hc) ?_ ?_
  · dsimp only
    rw [iff_false_right (by decide)]
    split <;> decide
  · have hf := h.fits
    rw [hwrite, hread, hp] at hf
    rw [hwrite, hread]
    refine busWrite_byte_fits (h.not_started (by rw [hp]; rfl)) hf fun d hd href =>
      hd.onDatum href h.mem.capacity.1 v ?_
    dsimp only
    split <;> simp

/-- A data byte of a write is looked up and sent (R150). -/
theorem memWriteStep_tData {chunk : Nat} {datum : State → Byte × State} {finish : State → State} {idle : Result}
    (hp : s.blk.ee.phase = .tData) (hc : s.blk.ee.chunk ≠ 0) :
    memWriteStep chunk datum finish idle s = .next (writeDatum (datum s).1 (datum s).2) := by
  simp only [memWriteStep, hp, if_neg hc]

theorem memWriteStep_tStop {chunk : Nat} {datum : State → Byte × State} {finish : State → State} {idle : Result}
    (hp : s.blk.ee.phase = .tStop) : memWriteStep chunk datum finish idle s = .next (finish (busStop s)) := by
  simp only [memWriteStep, hp]

/-- The step of EEWRB keeps coherence (R152). -/
theorem eewrbStep_coherent (h : s.Coherent) (hb : s.blk.busy = true) (ho : s.blk.op = 4) (ht : eewrbStep s = .next t) :
    t.Coherent := by
  have hwrite : s.writing = true := writing_eq_true.2 (.inl ho)
  have hread : s.reading = false := by simp [State.reading, ho]
  have hr : s.eeRuns := ⟨hb, .inr hwrite⟩
  have hst := hr.stands h
  rw [eewrbStep] at ht
  cases hp : s.blk.ee.phase
  case idle => exact absurd hp (hst.byteWrite ho)
  case tData =>
    have hc := hst.chunk_ne_zero (.inl ho) (by simp [hp])
    rw [memWriteStep_tData hp hc] at ht
    cases ht
    exact h.writeDatum hr hwrite hread hp hc _
  case tStop =>
    rw [memWriteStep_tStop hp] at ht
    cases ht
    exact h.ended hr (by rw [eeDone_eq]; simp only [busStop_blk]; rfl) (by simp [eeDone_eq]) rfl (by decide) (busStop_rests h.fits)
  all_goals
    exact memWriteStep_coherent h hr hwrite hread (fun _ => ⟨by decide, by simp [ho]⟩) (by simp [hp]) ht

/-- The end of a chunk, with every bank at rest (R153). -/
theorem State.Coherent.chunkDone (h : s.Coherent) (hr : s.eeRuns) (ho : s.blk.op = 5) (hi : s.blk.ee.phase ≠ .idle) :
    (chunkDone (busStop s)).Coherent := by
  have hst := hr.stands h
  obtain ⟨_, hsum, _⟩ := hst.blockWrite ho
  have hrest := busStop_rests h.fits
  have hee : (busStop s).blk.ee = s.blk.ee := by rw [busStop_blk]
  by_cases hl : (busStop s).blk.ee.len - BitVec.ofNat 7 (pageChunk (busStop s).blk.ee.addr (busStop s).blk.ee.len) = 0
  · rw [chunkDone_last hl]
    exact h.ended hr (by simp only [busStop_blk]; rfl) (by simp) rfl (by decide) hrest
  · rw [chunkDone_more hl]
    refine h.during hr (by simp only [State.setEe, busStop_blk]; rfl) (by simp) h.mem.buffer ?_ (by simp [controlPhase])
      fun b => (hrest b).fits
    rw [hee] at hl
    obtain ⟨_, hle⟩ := pageChunk_bounds (addr := s.blk.ee.addr) (hst.len_ne_zero (.inr ho) hi)
    refine ⟨by simp [ho], by simp [ho], by simp, fun _ => ⟨iff_of_false (by simp) hl, ?_, ?_⟩, by simp⟩
    · have hlt := s.blk.ee.len.isLt
      simp only [Config.eeMaxLen, BitVec.toNat_add, BitVec.toNat_sub, BitVec.toNat_ofNat] at hsum ⊢
      omega
    · simp only [BitVec.toNat_ofNat]
      exact Nat.mod_le _ _

/-- The step of EEWRBLK keeps coherence (R153). -/
theorem eewrblkStep_coherent (h : s.Coherent) (hb : s.blk.busy = true) (ho : s.blk.op = 5) (ht : eewrblkStep s = .next t) :
    t.Coherent := by
  have hwrite : s.writing = true := writing_eq_true.2 (.inr ho)
  have hread : s.reading = false := by simp [State.reading, ho]
  have hr : s.eeRuns := ⟨hb, .inr hwrite⟩
  have hst := hr.stands h
  rw [eewrblkStep] at ht
  cases hp : s.blk.ee.phase
  case idle =>
    simp only [memWriteStep, hp, (hst.blockWrite ho).1.1 hp] at ht
    cases ht
    exact h.ended hr rfl rfl hp (h.not_started (by rw [hp]; rfl)) fun b => (h.fits b).rests (by rw [hp]; rfl)
  case tData =>
    have hc := hst.chunk_ne_zero (.inr ho) (by simp [hp])
    rw [memWriteStep_tData hp hc] at ht
    cases ht
    obtain ⟨e, he, _⟩ := bufRead_spec (writeIndex s.blk.ee) s
    rw [blockDatum, he]
    exact (h.setEnv e).writeDatum hr hwrite hread hp hc _
  case tStop =>
    rw [memWriteStep_tStop hp] at ht
    cases ht
    exact h.chunkDone hr ho (by simp [hp])
  all_goals
    refine memWriteStep_coherent h hr hwrite hread (fun _ => ?_) (by simp [hp]) ht
    obtain ⟨h1, hle⟩ := pageChunk_bounds (addr := s.blk.ee.addr) (hst.len_ne_zero (.inr ho) (by simp [hp]))
    have hlt := s.blk.ee.len.isLt
    have hmod : (BitVec.ofNat 7 (pageChunk s.blk.ee.addr s.blk.ee.len)).toNat = pageChunk s.blk.ee.addr s.blk.ee.len := by
      rw [BitVec.toNat_ofNat]
      omega
    exact ⟨fun h0 => by rw [h0] at hmod; simp at hmod; omega, fun _ => hmod.le⟩

end

end Sys2Proof.Machine
end

section
/-! SUPPORT. The life of a command as one acceptance and one engine, what the infrared engines change, and coherence through every
agent's step. -/

namespace Sys2Proof.Machine

/-! ## The life of a command -/

/-- What the acceptance of a command loads beside BUSY, ILL and OP (R38); `exec_eq_life` ties it to `exec`. -/
def loadsOf : Instr → State → State
  | .eesel bank => fun s => s.setEe { s.blk.ee with bank := bank }
  | .eerdb addr => State.loadEe addr 1 0 .pollStart
  | .eerdblk addr len => State.loadEe addr len 0 (firstPhase len)
  | .eewrb addr value => State.loadEe addr 1 value .pollStart
  | .eewrblk addr len => State.loadEe addr len 0 (firstPhase len)
  | .irtx command address => State.loadTx command address
  | .irrx => State.loadRx

/-- The engine that steps for a command in progress (R266); `exec_eq_life` ties it to `exec`. -/
def engineOf : Instr → State → Result
  | .eesel _ => fun s => .next (eeselStep s)
  | .eerdb _ => eerdbStep
  | .eerdblk _ _ => eerdblkStep
  | .eewrb _ _ => eewrbStep
  | .eewrblk _ _ => eewrblkStep
  | .irtx _ _ => irtxStep
  | .irrx => irrxStep

theorem exec_eq_life (i : Instr) (s : State) : exec i s = life i.opcode (loadsOf i) (engineOf i) s := by cases i <;> rfl

theorem exec_of_idle (i : Instr) {s : State} (hb : s.blk.busy = false) : exec i s = .next (loadsOf i (s.accept i.opcode)) := by
  simp [exec_eq_life, life, hb]

theorem exec_of_own {i : Instr} {s : State} (hb : s.blk.busy = true) (ho : s.blk.op = i.opcode) : exec i s = engineOf i s := by
  simp [exec_eq_life, life, hb, ho]

theorem exec_of_other {i : Instr} {s : State} (hb : s.blk.busy = true) (ho : s.blk.op ≠ i.opcode) : exec i s = .next s := by
  simp [exec_eq_life, life, hb, ho]

/-- What a step of a command's life can be: its acceptance, a step of its engine, or nothing. -/
theorem exec_next {i : Instr} {s t : State} (h : exec i s = .next t) :
    (s.blk.busy = false ∧ t = loadsOf i (s.accept i.opcode)) ∨
    (s.blk.busy = true ∧ s.blk.op = i.opcode ∧ engineOf i s = .next t) ∨ t = s := by
  cases hb : s.blk.busy with
  | false =>
    rw [exec_of_idle i hb] at h
    cases h
    exact .inl ⟨rfl, rfl⟩
  | true =>
    by_cases ho : s.blk.op = i.opcode
    · exact .inr (.inl ⟨rfl, ho, exec_of_own hb ho ▸ h⟩)
    · rw [exec_of_other hb ho] at h
      cases h
      exact .inr (.inr rfl)

/-- The command in progress is one whose opcode OP holds (R23). -/
theorem inProgress_some {i : Instr} {s : State} (h : s.inProgress = some i) : s.blk.busy = true ∧ s.blk.op = i.opcode := by
  unfold State.inProgress at h
  split at h
  · next hb =>
    refine ⟨hb, BitVec.eq_of_toNat_eq ?_⟩
    split at h
    case h_8 => cases h
    all_goals
      cases h
      assumption
  · cases h

theorem engineStep_of_inProgress {i : Instr} {s : State} (h : s.inProgress = some i) : engineStep s = exec i s := by
  simp [engineStep, (inProgress_some h).1, h]

/-- The engine's turn: nothing where BUSY = 0, else a step of the engine that OP names (R266). -/
theorem engineStep_next {s t : State} (h : engineStep s = .next t) :
    (s.blk.busy = false ∧ t = s) ∨ ∃ i : Instr, s.inProgress = some i ∧ engineOf i s = .next t := by
  cases hb : s.blk.busy with
  | false =>
    simp only [engineStep, hb] at h
    cases h
    exact .inl ⟨rfl, rfl⟩
  | true =>
    cases hi : s.inProgress with
    | none => simp [engineStep, hb, hi] at h
    | some i =>
      rw [engineStep_of_inProgress hi, exec_of_own hb (inProgress_some hi).2] at h
      exact .inr ⟨i, rfl, h⟩

/-! ## What the infrared engines change -/

/-- An update of the receiver: RX registers, and with the twelfth bit the end of the operation; BUSY is never set, RESULT is written only
where it falls, and while it stays RX_BITCNT stays a place of RX_VALUE (R29, R195 to R197). -/
def RxUpdate (s t : State) : Prop :=
  ∃ (r : RxSeq) (busy : Bool) (v : Half), t = { s with blk := { s.blk with rx := r, busy := busy, result := v } } ∧
    (busy = true → s.blk.busy = true ∧ v = s.blk.result) ∧
    (s.blk.rx.bitCnt.toNat < Config.frameBits → busy = true → r.bitCnt.toNat < Config.frameBits)

theorem RxUpdate.trans {s u t : State} (h : RxUpdate s u) (h' : RxUpdate u t) : RxUpdate s t := by
  obtain ⟨r, b, v, rfl, hb, hc⟩ := h
  obtain ⟨r', b', v', rfl, hb', hc'⟩ := h'
  exact ⟨r', b', v', rfl, fun h => ⟨(hb (hb' h).1).1, (hb' h).2.trans (hb (hb' h).1).2⟩,
    fun hs h => hc' (hc hs (hb' h).1) h⟩

theorem setRx_rxUpdate {s : State} {r : RxSeq}
    (hr : s.blk.rx.bitCnt.toNat < Config.frameBits → r.bitCnt.toNat < Config.frameBits) : RxUpdate s (s.setRx r) :=
  ⟨r, s.blk.busy, s.blk.result, rfl, fun h => ⟨h, rfl⟩, fun h _ => hr h⟩

theorem zero_lt_txRepeats : (0 : BitVec 2).toNat < Config.txRepeats := by decide
theorem zero_lt_frameBits : (0 : BitVec 4).toNat < Config.frameBits := by decide

theorem acceptBit_rxUpdate (b : Bool) (s : State) : RxUpdate s (acceptBit b s) := by
  unfold acceptBit
  dsimp only
  split
  · exact ⟨_, false, _, rfl, by simp, by simp⟩
  · next hne =>
    refine setRx_rxUpdate fun hlt => ?_
    have hne' : (s.blk.rx.bitCnt + 1).toNat ≠ 12 := fun h => hne (BitVec.eq_of_toNat_eq h)
    have hone : (1 : BitVec 4).toNat = 1 := rfl
    simp only [BitVec.toNat_add, hone, Config.frameBits] at hlt hne' ⊢
    omega

theorem classify_rxUpdate (l : Nat) (s : State) : RxUpdate s (classify l s) := by
  unfold classify
  split
  · exact setRx_rxUpdate fun _ => zero_lt_frameBits
  · split
    · exact acceptBit_rxUpdate _ s
    · exact setRx_rxUpdate (r := s.blk.rx) id

theorem onSample_rxUpdate (level : Bool) (s : State) : RxUpdate s (onSample level s) := by
  unfold onSample
  split
  · exact setRx_rxUpdate id
  · split
    · exact setRx_rxUpdate (r := s.blk.rx) id
    · exact (setRx_rxUpdate id).trans (classify_rxUpdate _ _)

/-- A tick of IRRX (R191): the button's fallback where the flag is set, else what the sample does. -/
theorem irrxStep_next {s t : State} (h : irrxStep s = .next t) :
    (s.blk.btnFlag = true ∧ t = s.buttonFallback) ∨ (s.blk.btnFlag = false ∧ RxUpdate s.sampleIr.2 t) := by
  unfold irrxStep at h
  split at h
  · next hf => cases h; exact .inl ⟨hf, rfl⟩
  · next hf => cases h; exact .inr ⟨by simpa using hf, onSample_rxUpdate _ _⟩

/-- A step of the transmitter: its sequencer and `tx_trace`, and with the last gap of the third frame the end of the operation
(R171, R172). -/
theorem irtxStep_next {s t : State} (h : irtxStep s = .next t) :
    ∃ (x : TxSeq) (tr : List Segment) (busy : Bool) (v : Half),
      t = { s with blk := { s.blk with tx := x, txTrace := tr, busy := busy, result := v } } ∧
      (busy = true → s.blk.busy = true ∧ v = s.blk.result) ∧
      ((busy = false ∧ x.phase = .idle ∧ x.irTxEn = false) ∨
        (busy = s.blk.busy ∧ x.phase ≠ .idle ∧ (s.blk.tx.rep.toNat < Config.txRepeats → x.rep.toNat < Config.txRepeats) ∧
          ((s.blk.tx.phase = .bitOn ∨ s.blk.tx.phase = .bitGap → s.blk.tx.bit.toNat < Config.frameBits) →
            x.phase = .bitOn ∨ x.phase = .bitGap → x.bit.toNat < Config.frameBits))) := by
  unfold irtxStep at h
  dsimp only at h
  split at h
  case h_1 => cases h
  case h_2 => cases h; exact ⟨_, _, _, _, rfl, fun h => ⟨h, rfl⟩, .inr ⟨rfl, by simp, id, by simp⟩⟩
  case h_3 => cases h; exact ⟨_, _, _, _, rfl, fun h => ⟨h, rfl⟩, .inr ⟨rfl, by simp, id, fun _ _ => zero_lt_frameBits⟩⟩
  case h_4 hp => cases h; exact ⟨_, _, _, _, rfl, fun h => ⟨h, rfl⟩, .inr ⟨rfl, by simp, id, fun hb _ => hb (.inl hp)⟩⟩
  case h_5 hp =>
    split at h
    · next hlt =>
      cases h
      refine ⟨_, _, _, _, rfl, fun h => ⟨h, rfl⟩, .inr ⟨rfl, by simp, id, fun _ _ => ?_⟩⟩
      have hone : (1 : BitVec 4).toNat = 1 := rfl
      simp only [BitVec.toNat_add, hone, Config.frameBits] at hlt ⊢
      omega
    · cases h
      unfold frameDone
      dsimp only
      split
      · next hlt =>
        refine ⟨_, _, _, _, rfl, fun h => ⟨h, rfl⟩, .inr ⟨rfl, by simp, fun _ => ?_, by simp⟩⟩
        have hone : (1 : BitVec 2).toNat = 1 := rfl
        simp only [emit_tx, BitVec.toNat_add, hone, Config.txRepeats] at hlt ⊢
        omega
      · exact ⟨_, _, _, _, rfl, by simp, .inl ⟨rfl, rfl, rfl⟩⟩
  case h_6 => cases h; exact ⟨_, _, _, _, rfl, fun h => ⟨h, rfl⟩, .inr ⟨rfl, by simp, id, by simp⟩⟩

/-! ## Coherence through every engine -/

section
variable {s t : State}

/-- The bank a selector in range names has a legal select code (R25, R130). -/
theorem selectCode_legal {bank : Byte} (h : bank &&& 0xFC = 0) : legalSelect (selectCode bank) := by
  unfold legalSelect
  revert bank
  decide

/-- What EESEL's step changes: EE_DEVSEL where the selector is in range, RESULT and BUSY (R130). -/
theorem eeselStep_spec (s : State) : ∃ (c : Byte) (v : Half),
    eeselStep s = { s with blk := { s.blk with devsel := c, result := v, busy := false } } ∧
    (legalSelect s.blk.devsel → legalSelect c) := by
  unfold eeselStep
  dsimp only
  split
  · exact ⟨_, _, rfl, id⟩
  · next h => exact ⟨_, _, rfl, fun _ => selectCode_legal (not_not.1 h)⟩

theorem eeselStep_coherent (h : s.Coherent) (ho : s.blk.op = 1) : (eeselStep s).Coherent := by
  have hi := h.ee_idle_of_op (.inl ho)
  have htx := h.tx_idle (by simp [ho])
  obtain ⟨c, v, ht, hsel⟩ := eeselStep_spec s
  rw [ht]
  exact h.beside hi (hsel h.select) h.mem.buffer (.inl hi) rfl rfl rfl (seqOk_of_idle rfl hi htx (h.seq.carrierOff htx))

theorem irtxStep_coherent (h : s.Coherent) (hb : s.blk.busy = true) (ho : s.blk.op = 6) (ht : irtxStep s = .next t) :
    t.Coherent := by
  have hi := h.ee_idle_of_op (.inr (.inl ho))
  obtain ⟨_, hrep, hbit⟩ := h.seq.transmit hb ho
  obtain ⟨x, tr, busy, v, rfl, _, ⟨rfl, hx, hoff⟩ | ⟨rfl, hx, hrep', hbit'⟩⟩ := irtxStep_next ht
  · exact h.beside hi h.select h.mem.buffer (.inl hi) rfl rfl rfl (seqOk_of_idle rfl hi hx hoff)
  · exact h.beside hi h.select h.mem.buffer (.inl hi) rfl rfl rfl (seqOk_of_other (.inr (.inl ho)) hi (fun _ => ⟨hb, ho⟩)
      (fun h => absurd h hx) (fun _ _ => ⟨hx, hrep' hrep, hbit' hbit⟩) fun _ h7 => by
        have h67 := ho.symm.trans h7
        simp at h67)

theorem RxUpdate.coherent (hu : RxUpdate s t) (h : s.Coherent) (hb : s.blk.busy = true) (ho : s.blk.op = 7) : t.Coherent := by
  have hi := h.ee_idle_of_op (.inr (.inr ho))
  have htx := h.tx_idle (by simp [ho])
  obtain ⟨r, busy, v, rfl, _, hcnt⟩ := hu
  refine h.beside hi h.select h.mem.buffer (.inl hi) rfl rfl rfl (seqOk_of_other (.inr (.inr ho)) hi (fun hne => absurd htx hne)
    (fun _ => h.seq.carrierOff htx) (fun _ h6 => ?_) fun hbusy _ => hcnt (h.seq.receive hb ho) hbusy)
  have h76 := ho.symm.trans h6
  simp at h76

theorem irrxStep_coherent (h : s.Coherent) (hb : s.blk.busy = true) (ho : s.blk.op = 7) (ht : irrxStep s = .next t) :
    t.Coherent := by
  rcases irrxStep_next ht with ⟨_, rfl⟩ | ⟨_, hu⟩
  · have hi := h.ee_idle_of_op (.inr (.inr ho))
    have htx := h.tx_idle (by simp [ho])
    exact h.beside hi h.select h.mem.buffer (.inl hi) rfl rfl rfl (seqOk_of_idle rfl hi htx (h.seq.carrierOff htx))
  · obtain ⟨e, he, _⟩ := sampleIr_spec s
    rw [he] at hu
    exact hu.coherent (h.setEnv e) hb ho

/-- A step of whichever engine OP names (R266). -/
theorem engineOf_coherent {i : Instr} (h : s.Coherent) (hb : s.blk.busy = true) (ho : s.blk.op = i.opcode)
    (ht : engineOf i s = .next t) : t.Coherent := by
  cases i with
  | eesel bank => cases ht; exact eeselStep_coherent h ho
  | eerdb addr => exact eerdbStep_coherent h hb ho ht
  | eerdblk addr len => exact eerdblkStep_coherent h hb ho ht
  | eewrb addr value => exact eewrbStep_coherent h hb ho ht
  | eewrblk addr len => exact eewrblkStep_coherent h hb ho ht
  | irtx command address => exact irtxStep_coherent h hb ho ht
  | irrx => exact irrxStep_coherent h hb ho ht

/-! ## Coherence through acceptance -/

theorem firstPhase_eq (len : BitVec 7) : firstPhase len = .idle ∨ firstPhase len = .pollStart := by
  unfold firstPhase
  split <;> simp

theorem firstPhase_eq_idle {len : BitVec 7} : firstPhase len = .idle ↔ len = 0 := by
  unfold firstPhase
  split
  · next hl => simp [hl]
  · next hl => exact iff_of_false (by decide) hl

/-- With nothing in progress every sequencer is IDLE and the carrier off (R28, R31). -/
theorem State.Coherent.at_rest (h : s.Coherent) (hb : s.blk.busy = false) :
    s.blk.ee.phase = .idle ∧ s.blk.tx.phase = .idle ∧ s.blk.tx.irTxEn = false := by
  have htx := h.tx_idle (by simp [hb])
  exact ⟨h.ee_idle fun hr => absurd (hb.symm.trans hr.1) (by decide), htx, h.seq.carrierOff htx⟩

/-- The sequencer as acceptance loads it is where the operation may stand (R38). -/
theorem stands_loaded {op : BitVec 3} {e : EeSeq} (hphase : e.phase = .idle ∨ e.phase = .pollStart)
    (hbyte : op = 2 ∨ op = 4 → e.phase ≠ .idle) (hblock : op = 3 ∨ op = 5 → (e.phase = .idle ↔ e.len = 0))
    (hdone : e.done = 0) (hchunk : e.chunk = 0) : e.Stands op where
  byteRead h := hbyte (.inl h)
  blockRead h := ⟨hblock (.inl h), fun hd => by simp [hd] at hphase, fun _ _ => hdone⟩
  byteWrite h := hbyte (.inr h)
  blockWrite h := by
    have hlt := e.len.isLt
    exact ⟨hblock (.inr h), by simp [hdone, Config.eeMaxLen]; omega, by simp [hchunk]⟩
  writePhase _ := by rcases hphase with hp | hp <;> simp [hp]

/-- Acceptance of an EEPROM operation from an idle block (R38). -/
theorem loadEe_coherent (h : s.Coherent) (hb : s.blk.busy = false) {op : BitVec 3} {addr : Half} {len : BitVec 7} {val : Byte}
    {first : EePhase} (hop : (op = 2 ∨ op = 3) ∨ (op = 4 ∨ op = 5)) (hphase : first = .idle ∨ first = .pollStart)
    (hbyte : op = 2 ∨ op = 4 → first ≠ .idle) (hblock : op = 3 ∨ op = 5 → (first = .idle ↔ len = 0)) :
    (State.loadEe addr len val first (s.accept op)).Coherent := by
  obtain ⟨hi, htx, hoff⟩ := h.at_rest hb
  refine h.beside hi h.select h.mem.buffer hphase rfl rfl rfl (seqOk_of_stands ⟨rfl, ?_⟩ htx hoff
    (stands_loaded hphase hbyte hblock rfl rfl))
  exact hop.imp reading_eq_true.2 writing_eq_true.2

/-- Acceptance keeps coherence, whatever the command (R23, R38). -/
theorem loadsOf_coherent (i : Instr) (h : s.Coherent) (hb : s.blk.busy = false) : (loadsOf i (s.accept i.opcode)).Coherent := by
  obtain ⟨hi, htx, hoff⟩ := h.at_rest hb
  cases i with
  | eesel bank =>
    exact h.beside hi h.select h.mem.buffer (.inl hi) rfl rfl rfl (seqOk_of_other (.inl rfl) hi (fun hne => absurd htx hne)
      (fun _ => hoff) (fun _ h6 => by cases h6) fun _ h7 => by cases h7)
  | eerdb addr => exact loadEe_coherent h hb (by simp [Instr.opcode]) (.inr rfl) (by simp) (by simp [Instr.opcode])
  | eerdblk addr len =>
    exact loadEe_coherent h hb (by simp [Instr.opcode]) (firstPhase_eq len) (by simp [Instr.opcode]) fun _ => firstPhase_eq_idle
  | eewrb addr value => exact loadEe_coherent h hb (by simp [Instr.opcode]) (.inr rfl) (by simp) (by simp [Instr.opcode])
  | eewrblk addr len =>
    exact loadEe_coherent h hb (by simp [Instr.opcode]) (firstPhase_eq len) (by simp [Instr.opcode]) fun _ => firstPhase_eq_idle
  | irtx command address =>
    exact h.beside hi h.select h.mem.buffer (.inl hi) rfl rfl rfl (seqOk_of_other (.inr (.inl rfl)) hi (fun _ => ⟨rfl, rfl⟩)
      (fun hp => by cases hp) (fun _ _ => ⟨by simp [loadsOf, State.loadTx], zero_lt_txRepeats, fun _ => zero_lt_frameBits⟩)
      fun _ h7 => by cases h7)
  | irrx =>
    exact h.beside hi h.select h.mem.buffer (.inl hi) rfl rfl rfl (seqOk_of_other (.inr (.inr rfl)) hi (fun hne => absurd htx hne)
      (fun _ => hoff) (fun _ h6 => by cases h6) fun _ _ => zero_lt_frameBits)

theorem exec_coherent {i : Instr} (h : s.Coherent) (ht : exec i s = .next t) : t.Coherent := by
  rcases exec_next ht with ⟨hb, rfl⟩ | ⟨hb, ho, he⟩ | rfl
  · exact loadsOf_coherent i h hb
  · exact engineOf_coherent h hb ho he
  · exact h

/-! ## Coherence through the agents -/

theorem engineStep_coherent (h : s.Coherent) (ht : engineStep s = .next t) : t.Coherent := by
  rcases engineStep_next ht with ⟨_, rfl⟩ | ⟨i, hi, he⟩
  · exact h
  · exact engineOf_coherent h (inProgress_some hi).1 (inProgress_some hi).2 he

/-- A host write to a register other than CMD: BTN, a byte of EE_BUF while BUSY = 0, or nothing (R21). -/
theorem regWrite_cases (num : Byte) (data : Word) (s : State) :
    (num = 4 ∧ regWrite num data s = s.hostWriteBtn data) ∨
    (num ≠ 4 ∧ ∃ i, bufIndex num = some i ∧ s.blk.busy = false ∧ regWrite num data s = s.bufWrite i (data.truncate 8)) ∨
    (num ≠ 4 ∧ (bufIndex num = none ∨ s.blk.busy = true) ∧ regWrite num data s = s) := by
  unfold regWrite
  split
  · next h4 => exact .inl ⟨h4, rfl⟩
  · next h4 =>
    split
    · next hi => exact .inr (.inr ⟨h4, .inl hi, rfl⟩)
    · next i hi =>
      split
      · next hb => exact .inr (.inr ⟨h4, .inr hb, rfl⟩)
      · next hb => exact .inr (.inl ⟨h4, i, hi, by simpa using hb, rfl⟩)

theorem hostWriteBtn_eq (data : Word) (s : State) :
    s.hostWriteBtn data = { s with blk.btnFlag := s.blk.btnFlag && !data.getLsbD 0 } := by
  unfold State.hostWriteBtn
  split
  · next h => simp [h, State.setBtn]
  · next h => simp only [h, Bool.not_false, Bool.and_true]

theorem regWrite_coherent (h : s.Coherent) (num : Byte) (data : Word) : (regWrite num data s).Coherent := by
  rcases regWrite_cases num data s with ⟨_, hw⟩ | ⟨_, i, _, hb, hw⟩ | ⟨_, _, hw⟩ <;> rw [hw]
  · rw [hostWriteBtn_eq]
    exact h.congr rfl rfl rfl
  · obtain ⟨hi, htx, hoff⟩ := h.at_rest hb
    have hbuf := bufWrite_wf (i := i) (v := data.truncate 8) h.mem.buffer
    obtain ⟨m, hm, _⟩ := bufWrite_spec i (data.truncate 8) s
    rw [hm] at hbuf ⊢
    exact h.beside hi h.select hbuf (.inl hi) rfl rfl rfl (seqOk_of_idle hb hi htx hoff)
  · exact h

theorem cmdWrite_coherent {data : Word} (h : s.Coherent) (ht : cmdWrite data s = .next t) : t.Coherent := by
  unfold cmdWrite at ht
  split at ht
  · cases ht; exact h
  · split at ht
    · exact exec_coherent h ht
    · cases ht; exact h.congr rfl rfl rfl

/-- What a step of the host can be: nothing, a write, or a read of a register (R266). -/
theorem hostStep_next {s t : State} (h : hostStep s = .next t) :
    t = s ∨
    (∃ num data rest, s.env.prog = .write num data :: rest ∧ hostWrite num data (s.setEnv { s.env with prog := rest }) = .next t) ∨
    ∃ num e, t = hostRead num (s.setEnv e) := by
  unfold hostStep at h
  split at h
  · cases h; exact .inl rfl
  · next hp => exact .inr (.inl ⟨_, _, _, hp, h⟩)
  · cases h; exact .inr (.inr ⟨_, _, rfl⟩)
  · cases h
    split
    · exact .inr (.inr ⟨_, s.env, rfl⟩)
    · exact .inr (.inr ⟨_, _, rfl⟩)

theorem hostStep_coherent (h : s.Coherent) (ht : hostStep s = .next t) : t.Coherent := by
  rcases hostStep_next ht with rfl | ⟨num, data, rest, _, hw⟩ | ⟨num, e, rfl⟩
  · exact h
  · unfold hostWrite at hw
    split at hw
    · exact cmdWrite_coherent (h.setEnv _) hw
    · cases hw; exact regWrite_coherent (h.setEnv _) num data
  · obtain ⟨e', he, _⟩ := hostRead_spec num (s.setEnv e)
    rw [he]
    exact (h.setEnv e).setEnv e'

theorem commitStep_coherent (b : Bank) (h : s.Coherent) : (commitStep b s).Coherent := by
  obtain ⟨hsel, hcap, hbuf, hseq, hctl, hv⟩ := (coherent_iff s).1 h
  obtain ⟨q1, q2, q3, q4, q5, q6, q7, q8, q9, q10, q11⟩ := hseq
  refine (coherent_iff _).2 ⟨hsel, hcap, hbuf, ⟨q1, q2, q3, q4, q5, q6, q7, q8, q9, q10, q11⟩, hctl, fun c => ?_⟩
  show (bankAt (setBank s.banks b (bankCommit (bankAt s.banks b))) c).Fits _ _ _ _
  rw [bankAt_setBank]
  split
  · exact (hv b).onCommit
  · exact hv c

theorem rst_coherent (h : s.Coherent) : s.rst.Coherent := by
  refine (coherent_iff _).2 ⟨.inl rfl, h.mem.capacity, rfl, seqOk_of_idle rfl rfl rfl rfl, by simp [Block.reset, EeSeq.reset, controlPhase],
    fun b => ?_⟩
  rw [rst_bank]
  exact ((h.fits b).onCut _).fits

theorem agentStep_coherent {a : Agent} (h : s.Coherent) (ht : agentStep a s = .next t) : t.Coherent := by
  cases a with
  | idle => cases ht; exact h
  | host => exact hostStep_coherent h ht
  | engine => exact engineStep_coherent h ht
  | commit b => cases ht; exact commitStep_coherent b h
  | rst => cases ht; exact rst_coherent h

theorem withButton_coherent (sl : Slot) (h : s.Coherent) : (withButton sl s).Coherent := by
  unfold withButton
  split
  · exact h.congr rfl rfl rfl
  · exact h

/-- A step is the agent's step after the turn is taken, and then the button's (R266). -/
theorem step_next (ht : step s = .next t) :
    ∃ u, agentStep (nextSlot s).agent s.popSlot = .next u ∧ withButton (nextSlot s) u = t := thenNext_eq_next ht

/-- Settles O20. Every agent's step keeps coherence: the engine by the phase of its transaction, the host by the register it
accesses, the devices bank by bank. -/
theorem stepKeepsCoherence : Obligations.StepKeepsCoherence := by
  intro s t h ht
  obtain ⟨u, hu, rfl⟩ := step_next ht
  exact withButton_coherent _ (agentStep_coherent (h.setEnv _) hu)

end

end Sys2Proof.Machine
end


section
/-! SUPPORT. The frame of every command: what a step of its engine leaves as it was, first for the bus primitives and the shared phases
of an EEPROM transaction, then for each engine and for acceptance. -/

namespace Sys2Proof.Machine

/-! ## What the EEPROM engines leave -/

/-- All of a state that no step of a transaction writes: with the sequencer, the wires, their trace, BUSY, RESULT and the open device's inputs
put to fixed values, and of the devices their memories alone. -/
def State.outsideEe (s : State) : Block × Env × Params × (Bank → Memory) :=
  ({ s.blk with busy := false, result := 0, ee := EeSeq.reset, bus := .released, busTrace := [] },
    { s.env with ackIn := [], byteIn := [], draws := 0 }, s.params, fun b => (bankAt s.banks b).mem)

/-- `t` comes from `s` by steps of a transaction: nothing outside it has moved, BUSY has not risen, and RESULT is as it was unless BUSY
has fallen (R24). -/
structure EeFrame (s t : State) : Prop where
  outside : t.outsideEe = s.outsideEe
  ended : t.blk.busy = true → s.blk.busy = true ∧ t.blk.result = s.blk.result

theorem EeFrame.trans {s u t : State} (h : EeFrame s u) (h' : EeFrame u t) : EeFrame s t :=
  ⟨h'.outside.trans h.outside, fun hb =>
    ⟨(h.ended (h'.ended hb).1).1, (h'.ended hb).2.trans (h.ended (h'.ended hb).1).2⟩⟩

theorem EeFrame.setEe {s t : State} (h : EeFrame s t) (e : EeSeq) : EeFrame s (t.setEe e) := ⟨h.outside, h.ended⟩

theorem EeFrame.setPhase {s t : State} (h : EeFrame s t) (p : EePhase) : EeFrame s (t.setPhase p) := h.setEe _

theorem EeFrame.logBus {s t : State} (h : EeFrame s t) (e : BusEvent) (b : BusState) : EeFrame s (t.logBus e b) :=
  ⟨h.outside, h.ended⟩

theorem EeFrame.eeDone {s t : State} (h : EeFrame s t) (count : BitVec 7) (v : Half) : EeFrame s (eeDone count v t) :=
  ⟨h.outside, fun hb => by cases hb⟩

theorem EeFrame.done {s t : State} (h : EeFrame s t) (v : Half) : EeFrame s (t.done v) := ⟨h.outside, fun hb => by cases hb⟩

section
variable (s : State)

theorem EeFrame.refl : EeFrame s s := ⟨rfl, fun hb => ⟨hb, rfl⟩⟩

theorem setBanks_frame {v : Vector BankDev 4} (hv : ∀ b, (bankAt v b).mem = (bankAt s.banks b).mem) : EeFrame s (s.setBanks v) :=
  ⟨by simp [State.outsideEe, hv], fun hb => ⟨hb, rfl⟩⟩

theorem mapBanks_frame {f : BankDev → BankDev} (hf : ∀ d, (f d).mem = d.mem) : EeFrame s (s.setBanks (mapBanks f s.banks)) :=
  setBanks_frame s fun b => by rw [bankAt_mapBanks, hf]

theorem drawByte_frame : EeFrame s s.drawByte.2 := ⟨rfl, fun hb => ⟨hb, rfl⟩⟩

theorem oracleAck_frame : EeFrame s s.oracleAck.2 := by
  unfold State.oracleAck
  split <;> exact ⟨rfl, fun hb => ⟨hb, rfl⟩⟩

theorem oracleByte_frame : EeFrame s s.oracleByte.2 := by
  unfold State.oracleByte
  split <;> exact ⟨rfl, fun hb => ⟨hb, rfl⟩⟩

theorem bufRead_frame (i : Nat) : EeFrame s (s.bufRead i).2 := by
  unfold State.bufRead
  split
  · exact .refl s
  · exact drawByte_frame s

/-! No bus primitive stores a byte in a memory: only a commit does (R76). -/

theorem bankOnByte_mem (capacity : Nat) (x : Byte) (d : BankDev) : (bankOnByte capacity x d).mem = d.mem := by
  unfold bankOnByte
  split
  · rfl
  · split <;> rfl

theorem bankAfterRead_mem (m : Ack) (d : BankDev) : (bankAfterRead m d).mem = d.mem := by
  unfold bankAfterRead
  split <;> rfl

theorem devControl_mem (p : Params) (c : Byte) (v : Vector BankDev 4) (b : Bank) :
    (bankAt (devControl p c v).2 b).mem = (bankAt v b).mem := by
  unfold devControl
  split
  · rw [bankAt_setBank]
    split
    · next hb => rw [hb]
    · rfl
  · rfl

/-! ### The primitives -/

theorem busStart_frame {s t : State} (h : busStart s = .next t) : EeFrame s t := by
  unfold busStart at h
  split at h
  · cases h; exact (EeFrame.refl s).logBus _ _
  · split at h
    · cases h
    · cases h; exact (mapBanks_frame s (f := bankOnStart) fun _ => rfl).logBus _ _

theorem busWrite_frame (x : Byte) : EeFrame s (busWrite x s).2 := by
  refine EeFrame.logBus ?_ _ _
  unfold busAnswer
  split
  · exact oracleAck_frame s
  · split
    · exact setBanks_frame s (devControl_mem s.params x s.banks)
    · exact mapBanks_frame s (bankOnByte_mem _ x)

theorem busRead_frame (m : Ack) : EeFrame s (busRead m s).2 := by
  refine EeFrame.logBus ?_ _ _
  unfold busDatum
  split
  · exact oracleByte_frame s
  · split
    · exact mapBanks_frame s (bankAfterRead_mem m)
    · exact drawByte_frame s

theorem busStop_frame : EeFrame s (busStop s) := by
  unfold busStop
  split
  · exact (EeFrame.refl s).logBus _ _
  · exact (mapBanks_frame s (f := bankOnStop) fun _ => rfl).logBus _ _

/-! ### The phases -/

theorem startPhase_frame {next : EePhase} {s t : State} (h : startPhase next s = .next t) : EeFrame s t := by
  obtain ⟨u, hu, rfl⟩ := thenNext_eq_next h
  exact (busStart_frame hu).setPhase next

theorem bytePhase_frame (x : Byte) (next : EePhase) : EeFrame s (bytePhase x next s) := (busWrite_frame s x).setPhase next

theorem pollCtrl_frame : EeFrame s (pollCtrl s) := by
  unfold pollCtrl
  dsimp only
  split <;> exact (busWrite_frame s _).setPhase _

theorem writeDatum_frame (v : Byte) : EeFrame s (writeDatum v s) := (busWrite_frame s v).setEe _

theorem chunkDone_frame : EeFrame s (chunkDone s) := by
  unfold chunkDone
  dsimp only
  split
  · exact ((EeFrame.refl s).setEe _).eeDone _ _
  · exact (EeFrame.refl s).setEe _

end

/-- A read leaves what is outside the transaction, as far as the keeping of its bytes and its end do (R132). -/
theorem memReadStep_frame {n i : Nat} {keep : Byte → State → State} {finish : State → State} {idle : Result} {s t : State}
    (hkeep : s.blk.ee.phase = .tData → ∀ m, EeFrame s (keep (busRead m s).1 (busRead m s).2))
    (hfinish : ∀ u, EeFrame u (finish u)) (hidle : idle = .next t → EeFrame s t)
    (ht : memReadStep n i keep finish idle s = .next t) : EeFrame s t := by
  unfold memReadStep at ht
  split at ht
  case h_1 => exact hidle ht
  case h_2 => exact startPhase_frame ht
  case h_3 => cases ht; exact pollCtrl_frame s
  case h_4 => exact startPhase_frame ht
  case h_5 => cases ht; exact bytePhase_frame s _ _
  case h_6 => cases ht; exact bytePhase_frame s _ _
  case h_7 => cases ht; exact bytePhase_frame s _ _
  case h_8 => exact startPhase_frame ht
  case h_9 => cases ht; exact bytePhase_frame s _ _
  case h_10 hp =>
    split at ht
    · cases ht; exact (hkeep hp _).setPhase _
    · split at ht
      · cases ht; exact (hkeep hp _).setPhase _
      · cases ht
  case h_11 => cases ht; exact (busStop_frame s).trans (hfinish _)

/-- A write leaves what is outside the transaction, as far as the look-up of its bytes and its end do (R150). -/
theorem memWriteStep_frame {chunk : Nat} {datum : State → Byte × State} {finish : State → State} {idle : Result} {s t : State}
    (hdatum : ∀ u, EeFrame u (datum u).2) (hfinish : ∀ u, EeFrame u (finish u)) (hidle : idle = .next t → EeFrame s t)
    (ht : memWriteStep chunk datum finish idle s = .next t) : EeFrame s t := by
  unfold memWriteStep at ht
  split at ht
  case h_1 => exact hidle ht
  case h_2 => exact ((EeFrame.refl s).setEe _).trans (startPhase_frame ht)
  case h_3 => cases ht; exact pollCtrl_frame s
  case h_4 => exact startPhase_frame ht
  case h_5 => cases ht; exact bytePhase_frame s _ _
  case h_6 => cases ht; exact bytePhase_frame s _ _
  case h_7 => cases ht; exact bytePhase_frame s _ _
  case h_8 => cases ht
  case h_9 => cases ht
  case h_10 =>
    split at ht
    · cases ht
    · cases ht; exact (hdatum s).trans (writeDatum_frame _ _)
  case h_11 => cases ht; exact (busStop_frame s).trans (hfinish _)

/-! ### The engines -/

section
variable {s t : State}

theorem eerdbStep_frame (ht : eerdbStep s = .next t) : EeFrame s t :=
  memReadStep_frame (fun _ m => (busRead_frame s m).setEe _) (fun u => (EeFrame.refl u).eeDone _ _) (fun h => by cases h) ht

theorem eewrbStep_frame (ht : eewrbStep s = .next t) : EeFrame s t :=
  memWriteStep_frame EeFrame.refl (fun u => (EeFrame.refl u).eeDone _ _) (fun h => by cases h) ht

/-- The one step of a block command with no bytes (R134, R153). -/
theorem emptyBlock_frame (h : (if s.blk.ee.len = 0 then .next (s.done 0) else .fault .noPosition : Result) = .next t) :
    EeFrame s t := by
  split at h
  · cases h; exact (EeFrame.refl s).done 0
  · cases h

theorem eewrblkStep_frame (ht : eewrblkStep s = .next t) : EeFrame s t :=
  memWriteStep_frame (fun u => bufRead_frame u _) chunkDone_frame emptyBlock_frame ht

/-- A byte that EERDBLK keeps goes to EE_BUF[EE_DONE] alone (R27, R134). -/
theorem storeDatum_frame (h : EeFrame s t) (b : Byte) :
    ∃ m : Memory, EeFrame (s.setBuf m) (storeDatum b t) ∧
      ∀ a, a ≠ t.blk.ee.done.toNat → memRead m a = memRead s.blk.buf a := by
  have hbuf : t.blk.buf = s.blk.buf := congrArg (fun x => x.1.buf) h.outside
  have hout (m : Memory) : EeFrame (s.setBuf m) (t.setBuf m) :=
    ⟨congrArg (fun x => ({ x.1 with buf := m }, x.2)) h.outside, h.ended⟩
  obtain ⟨m, hm, hin, hoff⟩ := bufWrite_spec t.blk.ee.done.toNat b t
  refine ⟨m, ?_, fun a ha => ?_⟩
  · rw [storeDatum, hm]
    exact (hout m).setEe _
  · by_cases hlt : t.blk.ee.done.toNat < Config.eeMaxLen
    · rw [hin hlt, hbuf, memRead_memWrite_other _ _ _ _ ha]
    · rw [hoff (Nat.le_of_not_lt hlt), hbuf]

theorem eerdblkStep_frame (ht : eerdblkStep s = .next t) :
    ∃ m : Memory, EeFrame (s.setBuf m) t ∧ ∀ a, a ≠ s.blk.ee.done.toNat → memRead m a = memRead s.blk.buf a := by
  rw [eerdblkStep_eq] at ht
  by_cases hp : s.blk.ee.phase = .tData
  · have hkeep (m : Ack) := storeDatum_frame (busRead_frame s m) (busRead m s).1
    simp only [busRead_blk] at hkeep
    simp only [memReadStep, hp] at ht
    split at ht
    · cases ht
      obtain ⟨m, hf, hm⟩ := hkeep .ack
      exact ⟨m, hf.setPhase _, hm⟩
    · split at ht
      · cases ht
        obtain ⟨m, hf, hm⟩ := hkeep .nack
        exact ⟨m, hf.setPhase _, hm⟩
      · cases ht
  · exact ⟨s.blk.buf, memReadStep_frame (fun h => absurd h hp) (fun u => (EeFrame.refl u).eeDone _ _) emptyBlock_frame ht,
      fun _ _ => rfl⟩

end

/-! ## The frame of a command -/

/-- What a step of a command's life leaves as it was, clause by clause as `Obligations.ExecFrame` lists it. -/
structure CommandFrame (i : Instr) (s t : State) : Prop where
  opIll : s.blk.busy = true → t.blk.op = s.blk.op ∧ t.blk.ill = s.blk.ill
  devsel : i.opcode ≠ 1 → t.blk.devsel = s.blk.devsel
  buf : i.opcode ≠ 3 → t.blk.buf = s.blk.buf
  bufOther : ∀ a : Nat, a ≠ s.blk.ee.done.toNat → memRead t.blk.buf a = memRead s.blk.buf a
  tx : i.opcode ≠ 6 → t.blk.tx = s.blk.tx ∧ t.blk.txTrace = s.blk.txTrace
  rx : i.opcode ≠ 7 → t.blk.rx = s.blk.rx ∧ t.blk.btnFlag = s.blk.btnFlag ∧ t.blk.btnCount = s.blk.btnCount ∧
    t.env.irIn = s.env.irIn
  ee : i.opcode = 1 ∨ i.opcode = 6 ∨ i.opcode = 7 → t.blk.bus = s.blk.bus ∧ t.blk.busTrace = s.blk.busTrace ∧
    t.banks = s.banks ∧ t.env.ackIn = s.env.ackIn ∧ t.env.byteIn = s.env.byteIn ∧
    t.blk.ee = if i.opcode = 1 then { s.blk.ee with bank := t.blk.ee.bank } else s.blk.ee
  result : t.blk.busy = true → t.blk.result = s.blk.result
  eeprom : ∀ (b : Bank) (a : Nat), eepromByte t b a = eepromByte s b a
  rest : t.params = s.params ∧ t.env.prog = s.env.prog ∧ t.env.agenda = s.env.agenda ∧ t.env.rdata = s.env.rdata

section
variable {i : Instr} {s t : State}

theorem eepromByte_congr {b : Bank} (h : (bankAt t.banks b).mem = (bankAt s.banks b).mem) (a : Nat) :
    eepromByte t b a = eepromByte s b a := by
  simp only [eepromByte, h]

theorem CommandFrame.refl (i : Instr) (s : State) : CommandFrame i s s where
  opIll _ := ⟨rfl, rfl⟩
  devsel _ := rfl
  buf _ := rfl
  bufOther _ _ := rfl
  tx _ := ⟨rfl, rfl⟩
  rx _ := ⟨rfl, rfl, rfl, rfl⟩
  ee _ := ⟨rfl, rfl, rfl, rfl, rfl, by split <;> rfl⟩
  result _ := rfl
  eeprom _ _ := rfl
  rest := ⟨rfl, rfl, rfl, rfl⟩

/-- The frame of a transaction is that of its command. -/
theorem EeFrame.command {m : Memory} (h : EeFrame (s.setBuf m) t) (hi : i.opcode ≠ 1 ∧ i.opcode ≠ 6 ∧ i.opcode ≠ 7)
    (hm : i.opcode ≠ 3 → m = s.blk.buf) (ha : ∀ a, a ≠ s.blk.ee.done.toNat → memRead m a = memRead s.blk.buf a) :
    CommandFrame i s t := by
  have hout := h.outside
  have hbuf : t.blk.buf = m := congrArg (fun x => x.1.buf) hout
  exact {
    opIll := fun _ => ⟨congrArg (fun x => x.1.op) hout, congrArg (fun x => x.1.ill) hout⟩
    devsel := fun _ => congrArg (fun x => x.1.devsel) hout
    buf := fun h3 => hbuf.trans (hm h3)
    bufOther := fun a hne => by rw [hbuf, ha a hne]
    tx := fun _ => ⟨congrArg (fun x => x.1.tx) hout, congrArg (fun x => x.1.txTrace) hout⟩
    rx := fun _ => ⟨congrArg (fun x => x.1.rx) hout, congrArg (fun x => x.1.btnFlag) hout,
      congrArg (fun x => x.1.btnCount) hout, congrArg (fun x => x.2.1.irIn) hout⟩
    ee := fun ho => (ho.elim hi.1 fun ho => ho.elim hi.2.1 hi.2.2).elim
    result := fun hb => (h.ended hb).2
    eeprom := fun b => eepromByte_congr (congrArg (fun x => x.2.2.2 b) hout)
    rest := ⟨congrArg (fun x => x.2.2.1) hout, congrArg (fun x => x.2.1.prog) hout,
      congrArg (fun x => x.2.1.agenda) hout, congrArg (fun x => x.2.1.rdata) hout⟩ }

/-- What an acceptance changes: BUSY, ILL, OP, and the registers of the command's own sequencer (R38). -/
theorem loadsOf_spec (i : Instr) (s : State) : ∃ (e : EeSeq) (x : TxSeq) (r : RxSeq),
    loadsOf i (s.accept i.opcode) =
      { s with blk := { s.blk with busy := true, ill := false, op := i.opcode, ee := e, tx := x, rx := r } } ∧
    (i.opcode = 1 → e = { s.blk.ee with bank := e.bank }) ∧ (i.opcode = 6 ∨ i.opcode = 7 → e = s.blk.ee) ∧
    (i.opcode ≠ 6 → x = s.blk.tx) ∧ (i.opcode ≠ 7 → r = s.blk.rx) := by
  cases i <;> exact ⟨_, _, _, rfl, by simp [Instr.opcode], by simp [Instr.opcode], by simp [Instr.opcode], by simp [Instr.opcode]⟩

theorem loadsOf_frame (i : Instr) (hb : s.blk.busy = false) : CommandFrame i s (loadsOf i (s.accept i.opcode)) := by
  obtain ⟨e, x, r, ht, h1, h67, hx, hr⟩ := loadsOf_spec i s
  rw [ht]
  exact {
    opIll := fun hb' => absurd (hb.symm.trans hb') (by decide)
    devsel := fun _ => rfl
    buf := fun _ => rfl
    bufOther := fun _ _ => rfl
    tx := fun h6 => ⟨hx h6, rfl⟩
    rx := fun h7 => ⟨hr h7, rfl, rfl, rfl⟩
    ee := fun ho => ⟨rfl, rfl, rfl, rfl, rfl, by
      split
      · next h => exact h1 h
      · next h => exact h67 (ho.resolve_left h)⟩
    result := fun _ => rfl
    eeprom := fun _ _ => rfl
    rest := ⟨rfl, rfl, rfl, rfl⟩ }

theorem eeselStep_frame (bank : Byte) (s : State) : CommandFrame (.eesel bank) s (eeselStep s) := by
  obtain ⟨c, v, ht, _⟩ := eeselStep_spec s
  rw [ht]
  exact { CommandFrame.refl (.eesel bank) s with
    devsel := fun h => absurd rfl h
    result := fun hb => by cases hb }

theorem irtxStep_frame (command : BitVec 7) (address : BitVec 5) (ht : irtxStep s = .next t) :
    CommandFrame (.irtx command address) s t := by
  obtain ⟨x, tr, busy, v, rfl, hres, _⟩ := irtxStep_next ht
  exact { CommandFrame.refl (.irtx command address) s with
    tx := fun h => absurd rfl h
    result := fun hb => (hres hb).2 }

/-- What a tick of IRRX changes: the receiver, the button register, BUSY and RESULT where it ends, and of the surroundings the samples to
come (R191, R192). -/
theorem irrxStep_spec (ht : irrxStep s = .next t) :
    ∃ (r : RxSeq) (flag : Bool) (count : BitVec 7) (busy : Bool) (v : Half) (l : List Bool) (n : Nat),
      t = { s with
        blk := { s.blk with rx := r, btnFlag := flag, btnCount := count, busy := busy, result := v }
        env := { s.env with irIn := l, draws := n } } ∧
      (busy = true → v = s.blk.result) := by
  have hsample : ∃ l n, s.sampleIr.2 = s.setEnv { s.env with irIn := l, draws := n } := by
    unfold State.sampleIr
    split <;> exact ⟨_, _, rfl⟩
  rcases irrxStep_next ht with ⟨_, rfl⟩ | ⟨_, r, busy, v, rfl, hres, _⟩
  · exact ⟨_, _, _, _, _, _, _, rfl, by simp⟩
  · obtain ⟨l, n, hl⟩ := hsample
    rw [hl] at hres ⊢
    exact ⟨_, _, _, _, _, _, _, rfl, fun hb => (hres hb).2⟩

theorem irrxStep_frame (ht : irrxStep s = .next t) : CommandFrame .irrx s t := by
  obtain ⟨r, flag, count, busy, v, l, n, rfl, hres⟩ := irrxStep_spec ht
  exact { CommandFrame.refl .irrx s with
    rx := fun h => absurd rfl h
    result := hres }

theorem engineOf_frame (ht : engineOf i s = .next t) : CommandFrame i s t := by
  cases i with
  | eesel bank => cases ht; exact eeselStep_frame bank s
  | eerdb addr => exact (eerdbStep_frame ht).command (m := s.blk.buf) (by simp [Instr.opcode]) (fun _ => rfl) fun _ _ => rfl
  | eerdblk addr len =>
    obtain ⟨m, hf, hm⟩ := eerdblkStep_frame ht
    exact hf.command (by simp [Instr.opcode]) (by simp [Instr.opcode]) hm
  | eewrb addr value => exact (eewrbStep_frame ht).command (m := s.blk.buf) (by simp [Instr.opcode]) (fun _ => rfl) fun _ _ => rfl
  | eewrblk addr len => exact (eewrblkStep_frame ht).command (m := s.blk.buf) (by simp [Instr.opcode]) (fun _ => rfl) fun _ _ => rfl
  | irtx command address => exact irtxStep_frame command address ht
  | irrx => exact irrxStep_frame ht

theorem exec_frame (ht : exec i s = .next t) : CommandFrame i s t := by
  rcases exec_next ht with ⟨hb, rfl⟩ | ⟨_, _, he⟩ | rfl
  · exact loadsOf_frame i hb
  · exact engineOf_frame he
  · exact .refl i t

/-- Settles O23: the frame of a step is that of the acceptance or of the engine it is. -/
theorem execFrame : Obligations.ExecFrame := by
  intro i s t ht
  obtain ⟨opIll, devsel, buf, bufOther, tx, rx, ee, result, eeprom, rest⟩ := exec_frame ht
  exact ⟨opIll, devsel, buf, bufOther, tx, rx, ee, result, eeprom, rest⟩

end

end Sys2Proof.Machine
end


section
/-! SUPPORT. The host's accesses register by register, a step whose turn is prescribed, the writers of the button register, reset, and the
statements they settle. -/

namespace Sys2Proof.Machine

/-! ## Reading a register -/

theorem bufIndex_eq_none {num : Byte} (h : num.toNat < 128 ∨ num.toNat = 255) : bufIndex num = none := by
  rw [bufIndex, if_neg]
  simp only [Config.eeMaxLen]
  omega

theorem bufRegister_toNat {i : Nat} (hi : i < 127) : (BitVec.ofNat 8 (128 + i)).toNat = 128 + i := by
  rw [BitVec.toNat_ofNat]
  omega

theorem bufIndex_bufRegister {i : Nat} (hi : i < 127) : bufIndex (BitVec.ofNat 8 (128 + i)) = some i := by
  rw [bufIndex, bufRegister_toNat hi, if_pos (by simp only [Config.eeMaxLen]; omega), Nat.add_sub_cancel_left]

theorem regRead_reserved {num : Byte} (h : 5 ≤ num.toNat ∧ num.toNat ≤ 127 ∨ num.toNat = 255) (s : State) :
    regRead num s = (0, s) := by
  unfold regRead
  split
  case h_6 => rw [bufIndex_eq_none (by omega)]
  all_goals omega

theorem regRead_buf {i : Nat} (hi : i < 127) (s : State) : regRead (BitVec.ofNat 8 (128 + i)) s =
    ((if s.blk.busy then s.drawByte else s.bufRead i).1.zeroExtend 32,
      (if s.blk.busy then s.drawByte else s.bufRead i).2) := by
  have hnum := bufRegister_toNat hi
  unfold regRead
  split
  case h_6 => rw [bufIndex_bufRegister hi]
  all_goals omega

theorem bufRead_unlisted {i : Nat} {s : State} (h : memRead s.blk.buf i = none) : s.bufRead i = s.drawByte := by
  simp [State.bufRead, h]

theorem hostRead_of_regRead {num : Byte} {v : Word} {s u : State} (h : regRead num s = (v, u)) :
    hostRead num s = { u with env.rdata := v } := by
  simp only [hostRead, h]
  rfl

/-- Settles O11, register by register; EE_BUF by whether the byte is there to read. -/
theorem hostReads : Obligations.HostReads := by
  intro s
  refine ⟨rfl, rfl, rfl, rfl, rfl, fun n hn => hostRead_of_regRead (regRead_reserved hn s), ?_, ?_, ?_, ?_⟩
  · intro i v hi hb hv
    refine hostRead_of_regRead ?_
    rw [regRead_buf hi, hb, if_neg (by decide), bufRead_listed hv]
  · intro i hi hfree
    have hdraw : (if s.blk.busy then s.drawByte else s.bufRead i) = s.drawByte := by
      split
      · rfl
      · next hb => exact bufRead_unlisted (hfree.resolve_left hb)
    have hread := regRead_buf hi s
    rw [hdraw] at hread
    exact hostRead_of_regRead hread
  · intro n rest hp
    simp only [hostStep, hp]
    rfl
  · intro rest hp
    simp only [hostStep, hp]
    split
    · rw [← hp]
      rfl
    · rfl

/-! ## Writing a register -/

theorem hostWrite_of_ne_zero {num : Byte} (h : num ≠ 0) (data : Word) (s : State) :
    hostWrite num data s = .next (regWrite num data s) := by
  rw [hostWrite, if_neg h]

/-- A number that is neither BTN's nor one of EE_BUF ignores a write (R21). -/
theorem regWrite_ignored {num : Byte} (h4 : num ≠ 4) (hi : bufIndex num = none) (data : Word) (s : State) :
    regWrite num data s = s := by
  rcases regWrite_cases num data s with ⟨h, _⟩ | ⟨_, i, h, _⟩ | ⟨_, _, h⟩
  · exact absurd h h4
  · exact absurd (hi.symm.trans h) (by simp)
  · exact h

theorem regWrite_buf {i : Nat} (hi : i < 127) {s : State} (hb : s.blk.busy = false) (data : Word) :
    regWrite (BitVec.ofNat 8 (128 + i)) data s = s.setBuf (memWrite s.blk.buf i (data.truncate 8)) := by
  have hnum := bufRegister_toNat hi
  have h4 : BitVec.ofNat 8 (128 + i) ≠ 4 := fun h => by
    rw [h] at hnum
    simp at hnum
    omega
  obtain ⟨m, hw, hm, _⟩ := bufWrite_spec i (data.truncate 8) s
  rw [regWrite, if_neg h4, bufIndex_bufRegister hi, ← hm hi, ← hw]
  simp [hb]

/-- Settles O12: reserved and read-only numbers, BTN, EE_BUF. -/
theorem hostWrites : Obligations.HostWrites := by
  intro s w
  refine ⟨fun n hn => ?_, ?_, fun i hi hb => ?_⟩
  · have h0 : n ≠ 0 := fun h => by simp [h] at hn
    have h4 : n ≠ 4 := fun h => by simp [h] at hn
    rw [hostWrite_of_ne_zero h0, regWrite_ignored h4 (bufIndex_eq_none (by omega))]
  · rw [hostWrite_of_ne_zero (by decide), ← hostWriteBtn_eq]
    rfl
  · have hnum := bufRegister_toNat hi
    have h0 : BitVec.ofNat 8 (128 + i) ≠ 0 := fun h => by
      rw [h] at hnum
      simp at hnum
      omega
    refine ⟨memWrite s.blk.buf i (w.truncate 8), by rw [hostWrite_of_ne_zero h0, regWrite_buf hi hb]; rfl, fun j => ?_⟩
    rw [memRead_memWrite, BitVec.truncate_eq_setWidth, BitVec.setWidth_eq_extractLsb' (by decide)]

/-! ## A step whose turn is prescribed -/

theorem step_of_agenda {sl : Slot} {later : List Slot} {s : State} (h : s.env.agenda = sl :: later) :
    step s = thenNext (agentStep sl.agent { s with env.agenda := later }) (withButton sl) := by
  have hslot : nextSlot s = sl := by simp [nextSlot, h]
  have hpop : s.popSlot = { s with env.agenda := later } := by simp [State.popSlot, State.setEnv, h]
  rw [step, turn, hslot, hpop]

theorem withButton_of_no_event (a : Agent) (s : State) : withButton ⟨a, false⟩ s = s := by simp [withButton]

theorem withButton_of_event {a : Agent} (ha : a ≠ .rst) (s : State) : withButton ⟨a, true⟩ s = { s with blk.btnFlag := true } := by
  have hbeq : (a == Agent.rst) = false := by simpa using ha
  simp only [withButton, hbeq]
  rfl

theorem thenNext_congr {o : Result} {f g : State → State} (h : ∀ s, f s = g s) : thenNext o f = thenNext o g := by rw [funext h]

theorem thenNext_id (o : Result) : thenNext o (fun s => s) = o := by cases o <;> rfl

/-- Settles O7: the engine's turn, prescribed by the agenda or by default. -/
theorem stepRunsTheEngine : Obligations.StepRunsTheEngine := by
  refine ⟨fun i btn later s ha hi => ?_, fun i s ha hi hv => ?_⟩
  · have hi' : State.inProgress { s with env.agenda := later } = some i := hi
    rw [step_of_agenda ha]
    exact congrArg (thenNext · _) (engineStep_of_inProgress hi')
  · have hcommit : committingBank s.banks = none := List.find?_eq_none.2 fun b _ => by simp [hv b]
    have hslot : nextSlot s = ⟨.engine, false⟩ := by simp [nextSlot, ha, defaultAgent, hcommit, (inProgress_some hi).1]
    have hpop : s.popSlot = s := by
      obtain ⟨blk, banks, ⟨prog, rdata, agenda, irIn, ackIn, byteIn, draws⟩, params⟩ := s
      cases ha
      rfl
    rw [step, turn, hslot, hpop, thenNext_congr (withButton_of_no_event .engine), thenNext_id]
    exact engineStep_of_inProgress hi

/-- Settles O15: the event comes after the agent's step. -/
theorem buttonEventSetsTheFlag : Obligations.ButtonEventSetsTheFlag := by
  refine ⟨fun a later s ha => ?_, fun later s ha => ?_⟩
  · rw [step_of_agenda (sl := ⟨a, true⟩) (later := later) rfl, step_of_agenda (sl := ⟨a, false⟩) (later := later) rfl,
      thenNext_congr (withButton_of_event ha), thenNext_congr (withButton_of_no_event a), thenNext_id]
  · rw [step_of_agenda ha, thenNext_congr (withButton_of_event (by decide))]
    rfl

/-! ## The button register -/

/-- The button register is as it was. -/
def SameButton (s t : State) : Prop := t.blk.btnFlag = s.blk.btnFlag ∧ t.blk.btnCount = s.blk.btnCount

section
variable {s t : State}

theorem loadsOf_sameButton (i : Instr) (s : State) : SameButton s (loadsOf i (s.accept i.opcode)) := by
  obtain ⟨e, x, r, ht, _⟩ := loadsOf_spec i s
  rw [ht]
  exact ⟨rfl, rfl⟩

/-- A tick of IRRX without the flag leaves the button register (R192). -/
theorem irrxStep_sameButton (ht : irrxStep s = .next t) : SameButton s t ∨ s.blk.btnFlag = true := by
  rcases irrxStep_next ht with ⟨hf, _⟩ | ⟨_, r, busy, v, rfl, _⟩
  · exact .inr hf
  · exact .inl ⟨by simp, by simp⟩

/-- On the engine's turn only a tick of IRRX that finds the flag set writes the button register (R32, R192). -/
theorem engineStep_button (ht : engineStep s = .next t) :
    SameButton s t ∨ (s.blk.busy = true ∧ s.blk.op = 7 ∧ s.blk.btnFlag = true) := by
  rcases engineStep_next ht with ⟨_, rfl⟩ | ⟨i, hi, he⟩
  · exact .inl ⟨rfl, rfl⟩
  · obtain ⟨hb, ho⟩ := inProgress_some hi
    cases i with
    | irrx => exact (irrxStep_sameButton he).imp_right fun hf => ⟨hb, ho, hf⟩
    | _ =>
      obtain ⟨_, hflag, hcount, _⟩ := (engineOf_frame he).rx (by simp [Instr.opcode])
      exact .inl ⟨hflag, hcount⟩

/-- On the host's turn only a write of 1 to bit 0 of BTN writes the button register, and only its flag (R21, R26). -/
theorem hostStep_button (ht : hostStep s = .next t) : t.blk.btnCount = s.blk.btnCount ∧
    (t.blk.btnFlag = s.blk.btnFlag ∨ ∃ w rest, s.env.prog = .write 4 w :: rest ∧ w.getLsbD 0 = true) := by
  rcases hostStep_next ht with rfl | ⟨num, data, rest, hp, hw⟩ | ⟨num, e, rfl⟩
  · exact ⟨rfl, .inl rfl⟩
  · unfold hostWrite at hw
    split at hw
    · unfold cmdWrite at hw
      split at hw
      · cases hw; exact ⟨rfl, .inl rfl⟩
      · next hb =>
        split at hw
        · next i _ =>
          rw [exec_of_idle i (by simpa using hb)] at hw
          cases hw
          obtain ⟨hflag, hcount⟩ := loadsOf_sameButton i (s.setEnv { s.env with prog := rest })
          exact ⟨hcount, .inl hflag⟩
        · cases hw; exact ⟨rfl, .inl rfl⟩
    · cases hw
      rcases regWrite_cases num data (s.setEnv { s.env with prog := rest }) with ⟨rfl, h⟩ | ⟨_, i, _, _, h⟩ | ⟨_, _, h⟩ <;> rw [h]
      · rw [hostWriteBtn_eq]
        refine ⟨rfl, ?_⟩
        cases hbit : data.getLsbD 0 with
        | true => exact .inr ⟨data, rest, hp, hbit⟩
        | false => exact .inl (by simp)
      · simp
      · simp
  · simp

theorem withButton_button (sl : Slot) (s : State) : (withButton sl s).blk.btnCount = s.blk.btnCount ∧
    ((withButton sl s).blk.btnFlag = false → s.blk.btnFlag = false) := by
  unfold withButton
  split
  · exact ⟨rfl, fun h => by cases h⟩
  · exact ⟨rfl, id⟩

/-- Settles O16, agent by agent; the event of the same step can only set the flag. -/
theorem buttonRegisterWriters : Obligations.ButtonRegisterWriters := by
  intro s t ht
  obtain ⟨u, hu, rfl⟩ := step_next ht
  obtain ⟨hcount, hflag⟩ := withButton_button (nextSlot s) u
  rw [hcount]
  have hsame (h : SameButton s u) (hs : s.blk.btnFlag = true) (hf : (withButton (nextSlot s) u).blk.btnFlag = false) : False :=
    absurd ((h.1.trans hs).symm.trans (hflag hf)) (by decide)
  cases ha : (nextSlot s).agent <;> rw [ha] at hu
  case idle => cases hu; exact ⟨fun hs hf => (hsame ⟨rfl, rfl⟩ hs hf).elim, fun hc => absurd rfl hc⟩
  case commit b => cases hu; exact ⟨fun hs hf => (hsame ⟨rfl, rfl⟩ hs hf).elim, fun hc => absurd rfl hc⟩
  case rst => exact ⟨fun _ _ => .inl rfl, fun _ => .inl rfl⟩
  case engine =>
    rcases engineStep_button (s := s.popSlot) hu with h | ⟨hb, ho, hf⟩
    · exact ⟨fun hs hf => (hsame h hs hf).elim, fun hc => absurd h.2 hc⟩
    · exact ⟨fun _ _ => .inr (.inl ⟨rfl, hb, ho⟩), fun _ => .inr ⟨rfl, hb, ho, hf⟩⟩
  case host =>
    obtain ⟨hc, hw⟩ := hostStep_button (s := s.popSlot) hu
    refine ⟨fun hs hf => ?_, fun hne => absurd hc hne⟩
    rcases hw with h | h
    · exact (hsame ⟨h, hc⟩ hs hf).elim
    · exact .inr (.inr ⟨rfl, h⟩)

end

/-! ## The words of STATUS and BTN -/

theorem flagBit_getLsbD_zero (b : Bool) : (flagBit b).getLsbD 0 = b := by cases b <;> rfl

/-- STATUS from bit 0 up: BUSY, ILL, two zeros, OP, a zero (R23). -/
theorem statusWord_getLsbD (s : State) (k : Nat) : s.statusWord.getLsbD k =
    if k < 1 then (flagBit s.blk.busy).getLsbD k
    else if k - 1 < 1 then (flagBit s.blk.ill).getLsbD (k - 1)
    else if k - 1 - 1 < 2 then (0#2).getLsbD (k - 1 - 1)
    else if k - 1 - 1 - 2 < 3 then s.blk.op.getLsbD (k - 1 - 1 - 2)
    else (0#1).getLsbD (k - 1 - 1 - 2 - 3) := by
  simp only [State.statusWord, BitVec.getLsbD_append]

/-- BTN from bit 0 up: BTN_FLAG, BTN_COUNT (R26). -/
theorem btnWord_getLsbD (s : State) (k : Nat) : s.btnWord.getLsbD k =
    if k < 1 then (flagBit s.blk.btnFlag).getLsbD k else s.blk.btnCount.getLsbD (k - 1) := by
  simp only [State.btnWord, BitVec.getLsbD_append]

/-- Settles O13: each field is read off the word at its place. -/
theorem statusAndButtonWords : Obligations.StatusAndButtonWords := by
  intro s
  refine ⟨⟨?_, ?_, ?_, ?_, ?_⟩, ?_, ?_⟩
  · exact (statusWord_getLsbD s 0).trans (flagBit_getLsbD_zero _)
  · exact (statusWord_getLsbD s 1).trans (flagBit_getLsbD_zero _)
  · refine BitVec.eq_of_getLsbD_eq fun k hk => ?_
    rw [BitVec.getLsbD_extractLsb', statusWord_getLsbD]
    interval_cases k <;> rfl
  · refine BitVec.eq_of_getLsbD_eq fun k hk => ?_
    rw [BitVec.getLsbD_extractLsb', statusWord_getLsbD]
    interval_cases k <;> rfl
  · exact statusWord_getLsbD s 7
  · exact (btnWord_getLsbD s 0).trans (flagBit_getLsbD_zero _)
  · refine BitVec.eq_of_getLsbD_eq fun k hk => ?_
    rw [BitVec.getLsbD_extractLsb', btnWord_getLsbD]
    interval_cases k <;> rfl

/-! ## Reset -/

/-- Settles O17: the reset state is the literal of R37. -/
theorem resetValues : Obligations.ResetValues := by
  unfold Obligations.ResetValues
  decide

theorem bankCut_mem (draw : Nat) (d : BankDev) : (bankCut draw d).mem = d.mem := by
  unfold bankCut
  split <;> rfl

theorem bankCut_of_idle {d : BankDev} (h : d.mode = .idle) (draw : Nat) : bankCut draw d = d := by rw [bankCut, if_pos h]

/-- Settles O18: the edge is `State.rst`, with no event after it, and reaches each bank by `bankCut`. -/
theorem resetStep : Obligations.ResetStep := by
  intro btn later s ha
  have hstep : step s = .next (State.rst { s with env.agenda := later }) := by
    rw [step_of_agenda ha]
    cases btn <;> rfl
  refine ⟨_, hstep, rfl, rfl, rfl, rfl, rfl, fun b => ?_⟩
  rw [rst_bank]
  exact ⟨bankCut_mem _ _, fun hi => bankCut_of_idle hi _⟩

theorem reset_bank (b : Bank) : bankAt State.reset.banks b = BankDev.blank := by
  rcases bank_cases b with rfl | rfl | rfl | rfl <;> rfl

theorem blank_rests : BankDev.blank.Rests Params.default := ⟨rfl, by simp [BankDev.blank], rfl, rfl⟩

/-- Settles O19: every sequencer is IDLE and every bank at rest. -/
theorem resetIsCoherent : Obligations.ResetIsCoherent := by
  refine (coherent_iff _).2 ⟨.inl rfl, by decide, rfl, seqOk_of_idle rfl rfl rfl rfl, by decide, fun b => ?_⟩
  rw [reset_bank]
  exact blank_rests.fits

/-! ## Acceptance -/

/-- Settles O22: from an idle block a command's step is `State.accept` and what `loadsOf` loads. -/
theorem acceptanceLoads : Obligations.AcceptanceLoads := fun _ hb =>
  ⟨fun bank => exec_of_idle (.eesel bank) hb, fun addr => exec_of_idle (.eerdb addr) hb,
    fun addr len => exec_of_idle (.eerdblk addr len) hb, fun addr value => exec_of_idle (.eewrb addr value) hb,
    fun addr len => exec_of_idle (.eewrblk addr len) hb, fun command address => exec_of_idle (.irtx command address) hb,
    exec_of_idle .irrx hb⟩

end Sys2Proof.Machine
end

section
/-! SUPPORT. The reference device rule by rule (20_memory.md R73 to R77): the control byte, the bytes of a write, a read byte, the commit, and
that nothing but a commit stores a byte. -/

namespace Sys2Proof.Machine

/-! ## The control byte -/

/-- What a control byte's acknowledge means, clause by clause (R74). -/
theorem controlAcked_iff {p : Params} {v : Vector BankDev 4} {c : Byte} : controlAcked p v c = true ↔
    c.extractLsb' 4 4 = 0b1010#4 ∧ c.getLsbD 3 = false ∧ p.banksPresent[(controlBank c).toNat]'(controlBank c).isLt = true ∧
      bankBusy p v (controlBank c) = false := by
  simp only [controlAcked, Bool.and_eq_true, beq_iff_eq, Bool.not_eq_true', and_assoc]

theorem bankBusy_of_not_shared {p : Params} (hp : p.sharedCycle = false) (v : Vector BankDev 4) (b : Bank) :
    bankBusy p v b = (bankAt v b).busy := by
  simp [bankBusy, hp]

/-- Settles O40: the acknowledge moves the bank that bits 2:1 name, and only that one. -/
theorem controlAnswer : Obligations.ControlAnswer := by
  intro p v c hp b takes
  have hiff : controlAcked p v c = true ↔ takes := by
    rw [controlAcked_iff, bankBusy_of_not_shared hp]
    rfl
  refine ⟨fun ht => ?_, fun ht => ?_⟩
  · rw [devControl, if_pos (hiff.2 ht)]
    exact ⟨rfl, bankAt_setBank_same .., fun b' hb => (bankAt_setBank ..).trans (if_neg hb)⟩
  · rw [devControl, if_neg (mt hiff.1 ht)]

/-! ## The bytes of a write -/

theorem bankOnByte_addrHi {d : BankDev} (hb : d.busy = false) (hm : d.mode = .writeAddr0) (capacity : Nat) (x : Byte) :
    bankOnByte capacity x d = { d with ptr := x ++ d.ptr.extractLsb' 0 8, mode := .writeAddr1 } := by
  simp [bankOnByte, hb, hm]

theorem bankOnByte_addrLo {d : BankDev} (hb : d.busy = false) (hm : d.mode = .writeAddr1) (capacity : Nat) (x : Byte) :
    bankOnByte capacity x d = { d with ptr := d.ptr.extractLsb' 8 8 ++ x, mode := .writeData, latch := [] } := by
  simp [bankOnByte, hb, hm]

theorem bankOnByte_datum {d : BankDev} (hb : d.busy = false) (hm : d.mode = .writeData) (capacity : Nat) (x : Byte) :
    bankOnByte capacity x d = { d with
      latch := d.latch ++ [(d.ptr.toNat % capacity, x)]
      ptr := d.ptr.extractLsb' 7 9 ++ (d.ptr.extractLsb' 0 7 + 1#7) } := by
  simp [bankOnByte, hb, hm]

/-- The two address bytes together: the pointer is the address they spell, and the latch is empty (R64, R75). -/
theorem bankOnByte_address {d : BankDev} (hb : d.busy = false) (hm : d.mode = .writeAddr0) (capacity : Nat) (hi lo : Byte) :
    bankOnByte capacity lo (bankOnByte capacity hi d) = { d with ptr := hi ++ lo, mode := .writeData, latch := [] } := by
  rw [bankOnByte_addrHi hb hm, bankOnByte_addrLo]
  · simp only [BitVec.extractLsb'_append_eq_left]
  · exact hb
  · rfl

/-- The address of the `j`-th byte of a write whose first goes to `a`: further on in the page of 128 that `a` lies in (R75). -/
def pageAddress (a j : Nat) : Nat := a / 128 * 128 + (a % 128 + j) % 128

theorem pageAddress_lt (a : Half) (j : Nat) : pageAddress a.toNat j < 65536 := by
  have := a.isLt
  unfold pageAddress
  omega

theorem pageAddress_zero (a : Nat) : pageAddress a 0 = a := by
  unfold pageAddress
  omega

theorem pageAddress_add (a i j : Nat) : pageAddress (pageAddress a i) j = pageAddress a (i + j) := by
  unfold pageAddress
  omega

theorem toNat_append_eq_add {m n : Nat} (x : BitVec m) (y : BitVec n) : (x ++ y).toNat = x.toNat * 2 ^ n + y.toNat := by
  rw [BitVec.toNat_append, ← Nat.shiftLeft_add_eq_or_of_lt y.isLt, Nat.shiftLeft_eq]

/-- The pointer after a data byte: one on, inside its page (R75). -/
theorem nextPtr_toNat (ptr : Half) : (ptr.extractLsb' 7 9 ++ (ptr.extractLsb' 0 7 + 1#7)).toNat = pageAddress ptr.toNat 1 := by
  have h := ptr.isLt
  simp only [pageAddress, toNat_append_eq_add, BitVec.toNat_add, BitVec.extractLsb'_toNat, BitVec.toNat_ofNat, Nat.shiftRight_eq_div_pow]
  omega

/-- Data bytes of a write, one after the other: each goes to the latch at its place in the page, and the pointer ends past them, in the page
(R75). -/
theorem bankOnByte_data (capacity : Nat) (ds : List Byte) {d : BankDev} (hb : d.busy = false) (hm : d.mode = .writeData) :
    ds.foldl (fun x b => bankOnByte capacity b x) d = { d with
      latch := d.latch ++ ds.mapIdx (fun j b => (pageAddress d.ptr.toNat j % capacity, b))
      ptr := BitVec.ofNat 16 (pageAddress d.ptr.toNat ds.length) } := by
  induction ds generalizing d with
  | nil => simp [pageAddress_zero]
  | cons x ds ih =>
    rw [List.foldl_cons, bankOnByte_datum hb hm, ih]
    · simp only [nextPtr_toNat, pageAddress_add, List.mapIdx_cons, pageAddress_zero, List.length_cons, List.append_assoc,
        List.singleton_append, Nat.add_comm 1]
    · exact hb
    · exact hm

/-- A whole write transaction after its control byte: two address bytes, then the data bytes (R75). -/
theorem bankOnByte_write (capacity : Nat) (hi lo : Byte) (ds : List Byte) {d : BankDev} (hb : d.busy = false)
    (hm : d.mode = .writeAddr0) : (hi :: lo :: ds).foldl (fun x b => bankOnByte capacity b x) d = { d with
      mode := .writeData
      latch := ds.mapIdx (fun j b => (pageAddress (hi ++ lo : Half).toNat j % capacity, b))
      ptr := BitVec.ofNat 16 (pageAddress (hi ++ lo : Half).toNat ds.length) } := by
  rw [List.foldl_cons, List.foldl_cons, bankOnByte_address hb hm, bankOnByte_data]
  · rw [List.nil_append]
  · exact hb
  · rfl

/-- Settles O41: what `bankOnByte_write` says of the whole transaction, with the page written out. -/
theorem pageWrap : Obligations.PageWrap := by
  intro capacity hi lo ds d hb hm e page
  have hplace (j : Nat) : pageAddress (hi ++ lo : Half).toNat j = page + (lo.toNat % 128 + j) % 128 := by
    simp only [pageAddress, toNat_append_eq_add, page]
    omega
  have he := bankOnByte_write capacity hi lo ds hb hm
  simp only [hplace] at he
  simp only [e, he]
  refine ⟨trivial, hb, trivial, ?_, trivial⟩
  rw [← hplace, BitVec.toNat_ofNat, Nat.mod_eq_of_lt (pageAddress_lt _ _)]

/-! ## Stop and commit -/

/-- What an address reads as after cells are stored in order: the last cell of that address, or what it held before (R76). -/
theorem memRead_memWriteAll (m : Memory) (cells : List Host.Cell) (a : Nat) : memRead (memWriteAll m cells) a =
    match cells.reverse.find? (fun c => c.1 == a) with
    | some c => some c.2
    | none => memRead m a := by
  induction cells using List.reverseRecOn with
  | nil => rfl
  | append_singleton cells c ih =>
    rw [memWriteAll_append, memRead_memWrite, List.reverse_append, List.reverse_singleton, List.singleton_append, List.find?_cons]
    by_cases h : a = c.1
    · simp [h]
    · have hc : (c.1 == a) = false := by simpa using Ne.symm h
      rw [if_neg h, hc, ih]

theorem bankCommit_of_busy {d : BankDev} (h : d.busy = true) :
    bankCommit d = { d with mem := memWriteAll d.mem d.latch, latch := [], busy := false, ours := false } := by
  simp [bankCommit, h]

theorem bankCommit_of_not_busy {d : BankDev} (h : d.busy = false) : bankCommit d = d := by simp [bankCommit, h]

/-- Settles O42, from the commit of a bank in its write cycle and what a memory holds after it. -/
theorem commitStores : Obligations.CommitStores := by
  intro d
  refine ⟨by simp [bankOnStop], rfl, rfl, fun hb => ?_⟩
  rw [bankCommit_of_busy hb]
  exact ⟨rfl, rfl, rfl, rfl, memRead_memWriteAll d.mem d.latch, fun bound hm hc => memWf_memWriteAll d.latch hm hc⟩

/-! ## A read byte -/

/-- The bank in read mode, where no other is. -/
theorem readingBank_eq_some {v : Vector BankDev 4} {b : Bank} (hb : (bankAt v b).mode = .read)
    (ho : ∀ c : Bank, c ≠ b → (bankAt v c).mode ≠ .read) : readingBank v = some b := by
  have hread (c : Bank) : ((bankAt v c).mode == .read) = true ↔ c = b := by
    rw [beq_iff_eq]
    exact ⟨fun h => by_contra fun hc => ho c hc h, fun h => h ▸ hb⟩
  cases h : readingBank v with
  | none =>
    have := List.find?_eq_none.1 h b (by rcases bank_cases b with rfl | rfl | rfl | rfl <;> simp)
    exact absurd ((hread b).2 rfl) this
  | some c => rw [(hread c).1 (List.find?_some (p := fun c : Bank => (bankAt v c).mode == .read) h)]

/-- The byte a bank drives is the one the EEPROM holds at its pointer (R77). -/
theorem bankData_eq_eepromByte (s : State) (b : Bank) :
    bankData b s.params.eeCapacity (bankAt s.banks b) = eepromByte s b ((bankAt s.banks b).ptr.toNat % s.params.eeCapacity) := rfl

/-- A read from the bank in read mode: its byte, and every bank's own step (R77). -/
theorem busRead_of_reading {s : State} {b : Bank} (hd : s.params.device = .reference) (hb : (bankAt s.banks b).mode = .read)
    (ho : ∀ c : Bank, c ≠ b → (bankAt s.banks c).mode ≠ .read) (m : Ack) : busRead m s =
    (bankData b s.params.eeCapacity (bankAt s.banks b), (s.setBanks (mapBanks (bankAfterRead m) s.banks)).logBus
      (.read (bankData b s.params.eeCapacity (bankAt s.banks b)) m) .opened) := by
  simp [busRead, busDatum, hd, readingBank_eq_some hb ho]

/-- Settles O43: the bank in read mode drives the bus and advances; to the others a read is nothing. -/
theorem readMode : Obligations.ReadMode := by
  intro b m s hd hb ho
  refine ⟨?_, ?_, fun c hc => ?_, busRead_blk m s⟩
  · rw [busRead_of_reading hd hb ho, ← bankData_eq_eepromByte]
  · rw [busRead_bank_reference hd, bankAfterRead, if_pos hb]
  · rw [busRead_bank_reference hd, bankAfterRead, if_neg (ho c hc)]

/-! ## Only a commit stores -/

@[simp] theorem bankAt_commitStep (b c : Bank) (s : State) :
    bankAt (commitStep b s).banks c = if c = b then bankCommit (bankAt s.banks b) else bankAt s.banks c :=
  bankAt_setBank s.banks b c _

/-- The commit of one bank stores no byte in another (R73). -/
theorem eepromByte_commitStep_other {b c : Bank} (h : b ≠ c) (s : State) (a : Nat) :
    eepromByte (commitStep c s) b a = eepromByte s b a :=
  eepromByte_congr (by rw [bankAt_commitStep, if_neg h]) a

/-- The commit of a bank stores at latched addresses alone (R76). -/
theorem eepromByte_commitStep_unlatched {b : Bank} {s : State} {a : Nat} (h : ∀ c ∈ (bankAt s.banks b).latch, c.1 ≠ a) :
    eepromByte (commitStep b s) b a = eepromByte s b a := by
  have hmem : memRead (bankAt (commitStep b s).banks b).mem a = memRead (bankAt s.banks b).mem a := by
    rw [bankAt_commitStep, if_pos rfl]
    cases hb : (bankAt s.banks b).busy with
    | true => rw [bankCommit_of_busy hb]; exact memRead_memWriteAll_other _ _ _ h
    | false => rw [bankCommit_of_not_busy hb]
  simp only [eepromByte, hmem]

@[simp] theorem regWrite_banks (num : Byte) (data : Word) (s : State) : (regWrite num data s).banks = s.banks := by
  rcases regWrite_cases num data s with ⟨_, h⟩ | ⟨_, i, _, _, h⟩ | ⟨_, _, h⟩ <;> rw [h]
  · rw [hostWriteBtn_eq]
  · simp

/-- No access of the host stores a byte in the EEPROM (R70). -/
theorem hostStep_eepromByte {s t : State} (h : hostStep s = .next t) (b : Bank) (a : Nat) : eepromByte t b a = eepromByte s b a := by
  rcases hostStep_next h with rfl | ⟨num, data, rest, _, hw⟩ | ⟨num, e, rfl⟩
  · rfl
  · unfold hostWrite at hw
    split at hw
    · unfold cmdWrite at hw
      split at hw
      · cases hw; rfl
      · split at hw
        · exact (exec_frame hw).eeprom b a
        · cases hw; rfl
    · cases hw; exact eepromByte_congr (by rw [regWrite_banks]; rfl) a
  · exact eepromByte_congr (by rw [hostRead_banks]; rfl) a

/-- No step of an engine stores a byte in the EEPROM: data bytes go to a latch (R75, R256). -/
theorem engineStep_eepromByte {s t : State} (h : engineStep s = .next t) (b : Bank) (a : Nat) :
    eepromByte t b a = eepromByte s b a := by
  rcases engineStep_next h with ⟨_, rfl⟩ | ⟨i, _, he⟩
  · rfl
  · exact (engineOf_frame he).eeprom b a

@[simp] theorem withButton_banks (sl : Slot) (s : State) : (withButton sl s).banks = s.banks := by
  unfold withButton
  split <;> rfl

/-- What a step does to a byte of the EEPROM: what the commit of its bank does to it, where the step is that commit, and nothing otherwise. -/
theorem step_eepromByte {s t : State} (h : step s = .next t) (b : Bank) (a : Nat) :
    eepromByte t b a = if (nextSlot s).agent = .commit b then eepromByte (commitStep b s) b a else eepromByte s b a := by
  obtain ⟨u, hu, rfl⟩ := step_next h
  refine (eepromByte_congr (s := u) (by rw [withButton_banks]) a).trans ?_
  cases hag : (nextSlot s).agent <;> rw [hag] at hu
  case idle => cases hu; rfl
  case host => exact hostStep_eepromByte (s := s.popSlot) hu b a
  case engine => exact engineStep_eepromByte (s := s.popSlot) hu b a
  case rst => cases hu; exact eepromByte_congr (by rw [rst_bank, bankCut_mem]; rfl) a
  case commit c =>
    cases hu
    by_cases hc : b = c
    · subst hc; rw [if_pos rfl]; rfl
    · rw [if_neg fun h => hc (Agent.commit.inj h).symm]; exact eepromByte_commitStep_other hc _ a

/-- Settles O44: by agents, a step stores only where it is the bank's own commit, and that stores at latched addresses alone. -/
theorem onlyCommitStores : Obligations.OnlyCommitStores := by
  intro s t h b
  refine ⟨fun hne a => ?_, fun a hlatch => ?_⟩
  · rw [step_eepromByte h, if_neg hne]
  · rw [step_eepromByte h]
    split
    · exact eepromByte_commitStep_unlatched hlatch
    · rfl

end Sys2Proof.Machine
end

section
/-! SUPPORT. The bytes a transaction sends first (20_memory.md R63, R64), runs of a command cut into parts, the phases that the four EEPROM
operations share, and the calibration record (R67, R68). -/

namespace Sys2Proof.Machine

/-! ## Control and address bytes -/

/-- Bit 0 is all in which the read-phase control byte can differ (R63). -/
theorem readCode_getLsbD_succ (c : Byte) (k : Nat) : (readCode c).getLsbD (k + 1) = c.getLsbD (k + 1) := by simp [readCode]

theorem readCode_extract (c : Byte) (k n : Nat) : (readCode c).extractLsb' (k + 1) n = c.extractLsb' (k + 1) n :=
  BitVec.eq_of_getLsbD_eq fun j _ => by
    rw [BitVec.getLsbD_extractLsb', BitVec.getLsbD_extractLsb', Nat.add_right_comm, readCode_getLsbD_succ]

theorem controlBank_readCode (c : Byte) : controlBank (readCode c) = controlBank c := readCode_extract c 0 2

/-- A bank acknowledges the read-phase control byte where it acknowledges the write-phase one (R74). -/
theorem controlAcked_readCode (p : Params) (v : Vector BankDev 4) (c : Byte) :
    controlAcked p v (readCode c) = controlAcked p v c := by
  rw [Bool.eq_iff_iff, controlAcked_iff, controlAcked_iff]
  simp only [controlBank_readCode]
  rw [readCode_extract c 3 4, readCode_getLsbD_succ c 2]

/-- Settles O25: the read-phase byte is the write-phase byte but for bit 0, and the four write-phase bytes are evaluated. -/
theorem controlBytes : Obligations.ControlBytes := by
  intro bank cw cr
  have hcw : cw = (0xA0 ||| (bank.zeroExtend 8 <<< 1) : Byte) ∧ legalSelect cw ∧ cr = cw + 1 ∧
      (cr = 0xA1 ∨ cr = 0xA3 ∨ cr = 0xA5 ∨ cr = 0xA7) ∧ cw.getLsbD 0 = false ∧ cw.extractLsb' 1 2 = bank ∧
      cw.getLsbD 3 = false ∧ cw.extractLsb' 4 4 = 0b1010#4 ∧ deviceAddress cw = (0x50 ||| bank.zeroExtend 7 : BitVec 7) := by
    unfold legalSelect
    revert bank
    decide
  obtain ⟨hval, hlegal, hsucc, hread, hbit0, hbank, hbit3, htop, haddr⟩ := hcw
  exact ⟨hval, hlegal, hsucc, rfl, hread, hbit0, readCode_bit0 cw, hbank, (readCode_extract cw 0 2).trans hbank, hbit3,
    (readCode_getLsbD_succ cw 2).trans hbit3, htop, (readCode_extract cw 3 4).trans htop, haddr, hbank,
    (controlBank_readCode cw).trans hbank⟩

theorem addrHi_append_addrLo (a : Half) : addrHi a ++ addrLo a = a := BitVec.extractLsb'_append_extractLsb'

theorem addrHi_eq (a : Half) : addrHi a = BitVec.ofNat 8 (a.toNat / 256) :=
  BitVec.eq_of_toNat_eq (by simp [addrHi, Nat.shiftRight_eq_div_pow])

theorem addrLo_eq (a : Half) : addrLo a = BitVec.ofNat 8 (a.toNat % 256) :=
  BitVec.eq_of_toNat_eq (by simp [addrLo])

/-! ## Runs of a command -/

theorem execTimes_succ {i : Instr} {s u : State} (h : exec i s = .next u) (n : Nat) :
    execTimes (n + 1) i s = execTimes n i u := by
  simp only [execTimes, h]

theorem execTimes_one {i : Instr} {s u : State} (h : exec i s = .next u) : execTimes 1 i s = .next u := execTimes_succ h 0

/-- A run is its first part and then the rest. -/
theorem execTimes_add {i : Instr} {s u : State} {m : Nat} (h : execTimes m i s = .next u) (n : Nat) :
    execTimes (m + n) i s = execTimes n i u := by
  induction m generalizing s with
  | zero =>
    cases h
    rw [Nat.zero_add]
  | succ m ih =>
    cases hx : exec i s with
    | next v =>
      rw [execTimes_succ hx] at h
      rw [Nat.add_right_comm, execTimes_succ hx, ih h]
    | fault r => simp [execTimes, hx] at h
    | refused r => simp [execTimes, hx] at h

/-! ## The phases the four EEPROM operations share -/

/-- The EEPROM operation `i` is in progress. -/
structure State.Runs (i : Instr) (s : State) : Prop where
  eeprom : i.opcode ≠ 1 ∧ i.opcode ≠ 6 ∧ i.opcode ≠ 7
  busy : s.blk.busy = true
  op : s.blk.op = i.opcode

/-- The command reads the EEPROM. -/
def readsEeprom (i : Instr) : Bool := i.opcode == 2 || i.opcode == 3

/-- EE_CHUNK after a start condition of the poll: a page write loads it there (R150, R152, R153; log 11). -/
def loadedChunk (i : Instr) (e : EeSeq) : BitVec 7 :=
  if i.opcode = 4 then 1 else if i.opcode = 5 then BitVec.ofNat 7 (pageChunk e.addr e.len) else e.chunk

namespace State.Runs

variable {i : Instr} {s : State}

theorem congr {t : State} (h : s.Runs i) (hb : t.blk.busy = s.blk.busy) (ho : t.blk.op = s.blk.op) : t.Runs i :=
  ⟨h.eeprom, hb.trans h.busy, ho.trans h.op⟩

/-- A step of an EEPROM operation is one of `MemRead` or of `MemWrite` (R132, R150). -/
theorem step (h : s.Runs i) :
    (readsEeprom i = true ∧ loadedChunk i s.blk.ee = s.blk.ee.chunk ∧
      ∃ n k keep finish idle, exec i s = memReadStep n k keep finish idle s) ∨
    (readsEeprom i = false ∧ ∃ c datum finish idle, exec i s = memWriteStep c datum finish idle s ∧
      loadedChunk i s.blk.ee = BitVec.ofNat 7 c) := by
  obtain ⟨h1, h6, h7⟩ := h.eeprom
  rw [exec_of_own h.busy h.op]
  cases i with
  | eesel => exact absurd rfl h1
  | eerdb =>
    simp only [engineOf, eerdbStep]
    exact .inl ⟨rfl, rfl, _, _, _, _, _, rfl⟩
  | eerdblk =>
    simp only [engineOf, eerdblkStep]
    exact .inl ⟨rfl, rfl, _, _, _, _, _, rfl⟩
  | eewrb =>
    simp only [engineOf, eewrbStep]
    exact .inr ⟨rfl, _, _, _, _, rfl, rfl⟩
  | eewrblk =>
    simp only [engineOf, eewrblkStep]
    exact .inr ⟨rfl, _, _, _, _, rfl, rfl⟩
  | irtx => exact absurd rfl h6
  | irrx => exact absurd rfl h7

theorem exec_pollStart (h : s.Runs i) (hp : s.blk.ee.phase = .pollStart) :
    exec i s = startPhase .pollCtrl (s.setEe { s.blk.ee with chunk := loadedChunk i s.blk.ee }) := by
  rcases h.step with ⟨_, hc, n, k, keep, finish, idle, hx⟩ | ⟨_, c, datum, finish, idle, hx, hc⟩
  · rw [hx, hc]
    show _ = startPhase .pollCtrl s
    simp only [memReadStep, hp]
  · rw [hx, hc]
    simp only [memWriteStep, hp]

theorem exec_pollCtrl (h : s.Runs i) (hp : s.blk.ee.phase = .pollCtrl) : exec i s = .next (pollCtrl s) := by
  rcases h.step with ⟨_, _, n, k, keep, finish, idle, hx⟩ | ⟨_, c, datum, finish, idle, hx, _⟩
  · simp only [hx, memReadStep, hp]
  · simp only [hx, memWriteStep, hp]

theorem exec_tStart (h : s.Runs i) (hp : s.blk.ee.phase = .tStart) : exec i s = startPhase .tCtrlW s := by
  rcases h.step with ⟨_, _, n, k, keep, finish, idle, hx⟩ | ⟨_, c, datum, finish, idle, hx, _⟩
  · simp only [hx, memReadStep, hp]
  · simp only [hx, memWriteStep, hp]

theorem exec_tCtrlW (h : s.Runs i) (hp : s.blk.ee.phase = .tCtrlW) : exec i s = .next (bytePhase s.blk.devsel .tAddrHi s) := by
  rcases h.step with ⟨_, _, n, k, keep, finish, idle, hx⟩ | ⟨_, c, datum, finish, idle, hx, _⟩
  · simp only [hx, memReadStep, hp]
  · simp only [hx, memWriteStep, hp]

theorem exec_tAddrHi (h : s.Runs i) (hp : s.blk.ee.phase = .tAddrHi) :
    exec i s = .next (bytePhase (addrHi s.blk.ee.addr) .tAddrLo s) := by
  rcases h.step with ⟨_, _, n, k, keep, finish, idle, hx⟩ | ⟨_, c, datum, finish, idle, hx, _⟩
  · simp only [hx, memReadStep, hp]
  · simp only [hx, memWriteStep, hp]

theorem exec_tAddrLo (h : s.Runs i) (hp : s.blk.ee.phase = .tAddrLo) :
    exec i s = .next (bytePhase (addrLo s.blk.ee.addr) (if readsEeprom i then .tRstart else .tData) s) := by
  rcases h.step with ⟨hi, _, n, k, keep, finish, idle, hx⟩ | ⟨hi, c, datum, finish, idle, hx, _⟩
  · simp only [hx, memReadStep, hp, hi, if_true]
  · simp only [hx, memWriteStep, hp, hi, Bool.false_eq_true, if_false]

theorem exec_tRstart (h : s.Runs i) (hi : readsEeprom i = true) (hp : s.blk.ee.phase = .tRstart) :
    exec i s = startPhase .tCtrlR s := by
  rcases h.step with ⟨_, _, n, k, keep, finish, idle, hx⟩ | ⟨hw, _⟩
  · simp only [hx, memReadStep, hp]
  · exact absurd (hi.symm.trans hw) (by decide)

theorem exec_tCtrlR (h : s.Runs i) (hi : readsEeprom i = true) (hp : s.blk.ee.phase = .tCtrlR) :
    exec i s = .next (bytePhase (readCode s.blk.devsel) .tData s) := by
  rcases h.step with ⟨_, _, n, k, keep, finish, idle, hx⟩ | ⟨hw, _⟩
  · simp only [hx, memReadStep, hp]
  · exact absurd (hi.symm.trans hw) (by decide)

/-- The control byte before the address, the transaction's own or the acknowledged one of a merged poll: the next primitive is the high
address byte (R116, R132, R150). -/
theorem exec_control (h : s.Runs i) (hp : s.blk.ee.phase = .tCtrlW ∨
      s.blk.ee.phase = .pollCtrl ∧ s.params.pollMerged = true ∧ (busWrite s.blk.devsel s).1 = .ack) :
    ∃ t c, exec i s = .next t ∧ t.blk = { s.blk with
      ee := { s.blk.ee with phase := .tAddrHi }, bus := .opened, busTrace := s.blk.busTrace ++ [.write s.blk.devsel c] } := by
  rcases hp with hp | ⟨hp, hm, ha⟩
  · exact ⟨_, _, h.exec_tCtrlW hp, bytePhase_blk ..⟩
  · refine ⟨_, .ack, h.exec_pollCtrl hp, ?_⟩
    rw [pollCtrl_blk, ha, hm]
    rfl

end State.Runs

/-- Settles O31: the control byte, and then the two address bytes, at whatever answers. -/
theorem addressHighByteFirst : Obligations.AddressHighByteFirst := by
  intro i s h1 h6 h7 hb ho hp
  have hrun : s.Runs i := ⟨⟨h1, h6, h7⟩, hb, ho⟩
  obtain ⟨t, c, ht, hblk⟩ := hrun.exec_control hp
  have hrun_t : t.Runs i := hrun.congr (by rw [hblk]) (by rw [hblk])
  obtain ⟨u, a, hu, hublk⟩ : ∃ u a, exec i t = .next u ∧ u.blk = { t.blk with
      ee := { t.blk.ee with phase := .tAddrLo }, bus := .opened, busTrace := t.blk.busTrace ++ [.write (addrHi t.blk.ee.addr) a] } :=
    ⟨_, _, hrun_t.exec_tAddrHi (by rw [hblk]), bytePhase_blk ..⟩
  have hw := (hrun_t.congr (t := u) (by rw [hublk]) (by rw [hublk])).exec_tAddrLo (by rw [hublk])
  refine ⟨_, c, a, (busWrite (addrLo u.blk.ee.addr) u).1,
    (execTimes_succ ht 2).trans ((execTimes_succ hu 1).trans (execTimes_one hw)), ?_⟩
  simp [bytePhase_blk, hublk, hblk, addrHi_eq, addrLo_eq]

/-! ## The calibration record -/

/-- A field's two bytes make the field again under the same order (R67). -/
theorem fieldBytes_eq (littleEndian : Bool) (v : Half) :
    ∃ b0 b1, fieldBytes littleEndian v = [b0, b1] ∧ fieldOf littleEndian b0 b1 = v := by
  cases littleEndian <;> exact ⟨_, _, rfl, BitVec.extractLsb'_append_extractLsb'⟩

/-- Two bytes a field: the bytes at `2 * j` and after it are those of field `j` (R68). -/
theorem flatMap_pair_getElem? {α β : Type} (f : α → List β) (l : List α) (h : ∀ x ∈ l, (f x).length = 2) (j : Nat) {x : α}
    (hx : l[j]? = some x) : (l.flatMap f)[2 * j]? = (f x)[0]? ∧ (l.flatMap f)[2 * j + 1]? = (f x)[1]? := by
  induction l generalizing j with
  | nil => simp at hx
  | cons y ys ih =>
    have hy : (f y).length = 2 := h y (by simp)
    rw [List.flatMap_cons]
    cases j with
    | zero =>
      cases hx
      exact ⟨List.getElem?_append_left (by omega), List.getElem?_append_left (by omega)⟩
    | succ j =>
      have ih' := ih (fun x hx => h x (by simp [hx])) j (by simpa using hx)
      rw [List.getElem?_append_right (by omega), List.getElem?_append_right (by omega), hy]
      exact ih'

/-- Settles O56: each field is two bytes, which make it again. -/
theorem calibrationRoundTrip : Obligations.CalibrationRoundTrip := by
  intro littleEndian r
  have hlen (le : Bool) (v : Half) : (fieldBytes le v).length = 2 := by
    obtain ⟨_, _, h, _⟩ := fieldBytes_eq le v
    rw [h]
    rfl
  refine ⟨rfl, ?_, ?_, fun j v hj => ?_⟩
  · simp [CalRecord.bytes, CalRecord.fields, hlen]
  · obtain ⟨a0, a1, ha, ha'⟩ := fieldBytes_eq littleEndian r.rotate90CW
    obtain ⟨b0, b1, hb, hb'⟩ := fieldBytes_eq littleEndian r.rotate90CCW
    obtain ⟨c0, c1, hc, hc'⟩ := fieldBytes_eq littleEndian r.rotateSlightCW
    obtain ⟨d0, d1, hd, hd'⟩ := fieldBytes_eq littleEndian r.rotateSlightCCW
    obtain ⟨e0, e1, he, he'⟩ := fieldBytes_eq littleEndian r.section1StartOffset
    obtain ⟨f0, f1, hf, hf'⟩ := fieldBytes_eq littleEndian r.sensorToCenterOffset
    obtain ⟨g0, g1, hg, hg'⟩ := fieldBytes_eq littleEndian r.betweenPointsDuration
    simp [CalRecord.bytes, CalRecord.fields, calRecordOf, ha, hb, hc, hd, he, hf, hg, ha', hb', hc', hd', he', hf', hg']
  · obtain ⟨hlo, hhi⟩ := flatMap_pair_getElem? (fieldBytes true) r.fields (fun v _ => hlen true v) j hj
    obtain ⟨hlo', hhi'⟩ := flatMap_pair_getElem? (fieldBytes false) r.fields (fun v _ => hlen false v) j hj
    exact ⟨hlo, hhi, hlo', hhi'⟩

end Sys2Proof.Machine
end

section
/-! SUPPORT. A transaction of the engine with the selected bank of the reference device, primitive by primitive: the poll, answered or not, and
the address phase (20_memory.md R61, R64, 40_eeprom_read.md R131, R132, 41_eeprom_write.md R150). -/

namespace Sys2Proof.Machine

/-! ## Banks that rest -/

theorem bankOnStart_of_idle {d : BankDev} (hi : d.mode = .idle) : bankOnStart d = d := by
  simp [bankOnStart, ← hi]

theorem bankOnStop_of_quiet {d : BankDev} (hi : d.mode = .idle) (hc : bankOpenLatch d = false) : bankOnStop d = d := by
  have hb : (d.busy || !d.latch.isEmpty) = d.busy := by
    cases hb : d.busy <;> simp_all [bankOpenLatch]
  simp [bankOnStop, hb, hc, ← hi]

theorem setBank_setBank (v : Vector BankDev 4) (b : Bank) (d e : BankDev) : setBank (setBank v b d) b e = setBank v b e :=
  banks_ext fun c => by
    simp only [bankAt_setBank]
    split <;> rfl

theorem setBank_self (v : Vector BankDev 4) (b : Bank) : setBank v b (bankAt v b) = v :=
  banks_ext fun c => by
    rw [bankAt_setBank]
    split
    · next h => rw [h]
    · rfl

/-- What every bank does to itself, where the banks but one do nothing. -/
theorem mapBanks_setBank {f : BankDev → BankDev} {v : Vector BankDev 4} {b : Bank} (d : BankDev)
    (h : ∀ c, c ≠ b → f (bankAt v c) = bankAt v c) : mapBanks f (setBank v b d) = setBank v b (f d) :=
  banks_ext fun c => by
    rw [bankAt_mapBanks, bankAt_setBank, bankAt_setBank]
    split
    · rfl
    · next hc => exact h c hc

theorem anyBank_setBank {f : BankDev → Bool} {v : Vector BankDev 4} {b : Bank} (d : BankDev)
    (h : ∀ c, c ≠ b → f (bankAt v c) = false) : anyBank f (setBank v b d) = f d := by
  rw [Bool.eq_iff_iff, anyBank_eq_true]
  constructor
  · rintro ⟨c, hc⟩
    rw [bankAt_setBank] at hc
    split at hc
    · exact hc
    · next hne => exact absurd ((h c hne).symm.trans hc) (by decide)
  · exact fun hd => ⟨b, by rwa [bankAt_setBank_same]⟩

/-- A control byte is answered by the write cycles alone, of whatever else the banks are in the middle of (R74). -/
theorem controlAcked_congr {p : Params} {v w : Vector BankDev 4} (h : ∀ b, (bankAt v b).busy = (bankAt w b).busy) (c : Byte) :
    controlAcked p v c = controlAcked p w c := by
  simp only [controlAcked, bankBusy, anyBank, h]

theorem controlAcked_setBank {p : Params} {v : Vector BankDev 4} {b : Bank} {d : BankDev} (h : d.busy = (bankAt v b).busy) (c : Byte) :
    controlAcked p (setBank v b d) c = controlAcked p v c := by
  refine controlAcked_congr (fun k => ?_) c
  rw [bankAt_setBank]
  split
  · next hk => rw [hk, h]
  · rfl

/-! ## A state in the middle of a transaction -/

/-- The device of the selected bank. -/
def State.dev (s : State) : BankDev := bankAt s.banks s.selected

/-- `s` with a transaction of the selected bank in progress beside it: the sequencer at `e`, the wires at `bus`, the events `ev` on the bus since
`s`, and the bank at `d`. -/
def State.onBus (s : State) (e : EeSeq) (bus : BusState) (ev : List BusEvent) (d : BankDev) : State :=
  { s with
    blk := { s.blk with ee := e, bus := bus, busTrace := s.blk.busTrace ++ ev }
    banks := setBank s.banks s.selected d }

/-- The reference device answers, and of its banks only the selected one can be in a transaction (R73, R76). -/
structure State.Alone (s : State) : Prop where
  device : s.params.device = .reference
  others : ∀ b : Bank, b ≠ s.selected → (bankAt s.banks b).mode = .idle ∧ bankOpenLatch (bankAt s.banks b) = false

section
variable {i : Instr} {s : State} {e : EeSeq} {bus : BusState} {ev : List BusEvent} {d : BankDev}

theorem onBus_self (s : State) : s.onBus s.blk.ee s.blk.bus [] s.dev = s := by
  simp [State.onBus, State.dev, setBank_self]

@[simp] theorem onBus_devsel : (s.onBus e bus ev d).blk.devsel = s.blk.devsel := rfl
@[simp] theorem onBus_ee : (s.onBus e bus ev d).blk.ee = e := rfl

theorem onBus_setPhase (p : EePhase) : (s.onBus e bus ev d).setPhase p = s.onBus { e with phase := p } bus ev d := rfl

theorem onBus_runs (h : s.Runs i) : (s.onBus e bus ev d).Runs i := h.congr rfl rfl

@[simp] theorem onBus_bank : bankAt (s.onBus e bus ev d).banks s.selected = d := bankAt_setBank_same ..

theorem onBus_bank_other {b : Bank} (h : b ≠ s.selected) : bankAt (s.onBus e bus ev d).banks b = bankAt s.banks b :=
  (bankAt_setBank ..).trans (if_neg h)

theorem State.busQuiet.alone (h : s.busQuiet) (hd : s.params.device = .reference) : s.Alone := ⟨hd, fun b _ => h b⟩

theorem State.ready.not_busy (h : s.ready) : s.dev.busy = false := controlAcked_bank h.2

theorem State.busQuiet.latch (h : s.busQuiet) (hb : s.dev.busy = false) : s.dev.latch = [] := by
  have hc : bankOpenLatch s.dev = false := (h s.selected).2
  simpa [bankOpenLatch, hb] using hc

/-! ## The primitives -/

/-- A start condition over no open latch (R61, R76). -/
theorem startPhase_onBus (h : s.Alone) (hc : bankOpenLatch d = false) (next : EePhase) :
    startPhase next (s.onBus e bus ev d) =
      .next (s.onBus { e with phase := next } .started (ev ++ [.start]) (bankOnStart d)) := by
  have hopen : anyBank bankOpenLatch (s.onBus e bus ev d).banks = false :=
    (anyBank_setBank d fun b hb => (h.others b hb).2).trans hc
  have hmap : mapBanks bankOnStart (s.onBus e bus ev d).banks = setBank s.banks s.selected (bankOnStart d) :=
    mapBanks_setBank d fun b hb => bankOnStart_of_idle (h.others b hb).1
  have hdev : (s.onBus e bus ev d).params.device = .reference := h.device
  simp only [startPhase, busStart, hdev, hopen, Bool.false_eq_true, if_false, thenNext_next, hmap]
  simp [State.onBus, State.setPhase, State.setEe, State.logBus, State.setBanks]

/-- A control byte of the selected bank that its device acknowledges (R74). -/
theorem busWrite_control_onBus (h : s.Alone) {x : Byte} (hx : controlBank x = s.selected)
    (hack : controlAcked s.params s.banks x = true) (hd : d.busy = s.dev.busy) :
    busWrite x (s.onBus e .started ev d) =
      (.ack, s.onBus e .opened (ev ++ [.write x .ack]) { d with mode := if x.getLsbD 0 then .read else .writeAddr0 }) := by
  have hdev : (s.onBus e .started ev d).params.device = .reference := h.device
  have hacked : controlAcked (s.onBus e .started ev d).params (s.onBus e .started ev d).banks x = true :=
    (controlAcked_setBank hd x).trans hack
  have hbus : (s.onBus e .started ev d).blk.bus = .started := rfl
  simp only [busWrite, busAnswer, hdev, hbus, devControl, hacked, if_true, hx, onBus_bank]
  simp [State.onBus, State.logBus, State.setBanks, setBank_setBank]

/-- A control byte that nobody acknowledges moves nothing (R74). -/
theorem busWrite_nack_onBus (h : s.Alone) {x : Byte} (hnack : controlAcked s.params s.banks x = false) (hd : d.busy = s.dev.busy) :
    busWrite x (s.onBus e .started ev d) = (.nack, s.onBus e .opened (ev ++ [.write x .nack]) d) := by
  have hdev : (s.onBus e .started ev d).params.device = .reference := h.device
  have hacked : controlAcked (s.onBus e .started ev d).params (s.onBus e .started ev d).banks x = false :=
    (controlAcked_setBank hd x).trans hnack
  have hbus : (s.onBus e .started ev d).blk.bus = .started := rfl
  simp only [busWrite, busAnswer, hdev, hbus, devControl, hacked, Bool.false_eq_true, if_false]
  simp [State.onBus, State.logBus, State.setBanks]

/-- A byte that the selected bank takes (R75). -/
theorem busWrite_byte_onBus (h : s.Alone) (ht : bankTakes d = true) (x : Byte) :
    busWrite x (s.onBus e .opened ev d) =
      (.ack, s.onBus e .opened (ev ++ [.write x .ack]) (bankOnByte s.params.eeCapacity x d)) := by
  have hdev : (s.onBus e .opened ev d).params.device = .reference := h.device
  have hbus : (s.onBus e .opened ev d).blk.bus = .opened := rfl
  have htaken : anyBank bankTakes (s.onBus e .opened ev d).banks = true :=
    anyBank_eq_true.2 ⟨s.selected, by rwa [onBus_bank]⟩
  have hmap : mapBanks (bankOnByte (s.onBus e .opened ev d).params.eeCapacity x) (s.onBus e .opened ev d).banks =
      setBank s.banks s.selected (bankOnByte s.params.eeCapacity x d) :=
    mapBanks_setBank d fun b hb => bankOnByte_of_idle (h.others b hb).1
  simp only [busWrite, busAnswer, hdev, hbus, devByte, htaken, hmap, ackOf, if_true]
  simp [State.onBus, State.logBus, State.setBanks]

/-- A byte read from the selected bank (R77). -/
theorem busRead_onBus (h : s.Alone) (hm : d.mode = .read) (m : Ack) :
    busRead m (s.onBus e bus ev d) =
      (bankData s.selected s.params.eeCapacity d, s.onBus e .opened (ev ++ [.read (bankData s.selected s.params.eeCapacity d) m])
        (bankAfterRead m d)) := by
  have hmode : (bankAt (s.onBus e bus ev d).banks s.selected).mode = .read := by rw [onBus_bank, hm]
  have hothers (c : Bank) (hc : c ≠ s.selected) : (bankAt (s.onBus e bus ev d).banks c).mode ≠ .read := by
    rw [onBus_bank_other hc, (h.others c hc).1]
    decide
  have hmap : mapBanks (bankAfterRead m) (s.onBus e bus ev d).banks = setBank s.banks s.selected (bankAfterRead m d) :=
    mapBanks_setBank d fun b hb => bankAfterRead_of_idle (h.others b hb).1
  rw [busRead_of_reading (s := s.onBus e bus ev d) h.device hmode hothers, hmap, onBus_bank]
  simp [State.onBus, State.logBus, State.setBanks]

/-- A stop condition (R76). -/
theorem busStop_onBus (h : s.Alone) :
    busStop (s.onBus e bus ev d) = s.onBus e .released (ev ++ [.stop]) (bankOnStop d) := by
  have hdev : (s.onBus e bus ev d).params.device = .reference := h.device
  have hmap : mapBanks bankOnStop (s.onBus e bus ev d).banks = setBank s.banks s.selected (bankOnStop d) :=
    mapBanks_setBank d fun b hb => bankOnStop_of_quiet (h.others b hb).1 (h.others b hb).2
  simp only [busStop, hdev, hmap]
  simp [State.onBus, State.logBus, State.setBanks]

/-! ## The phases -/

/-- The first start condition of an operation, or the next one of its poll, which loads EE_CHUNK in a write (R131, R150). -/
theorem exec_pollStart_onBus (hrun : s.Runs i) (h : s.Alone) (hp : e.phase = .pollStart) (hc : bankOpenLatch d = false) :
    exec i (s.onBus e bus ev d) =
      .next (s.onBus { e with chunk := loadedChunk i e, phase := .pollCtrl } .started (ev ++ [.start]) (bankOnStart d)) :=
  ((onBus_runs hrun).exec_pollStart hp).trans (startPhase_onBus (e := { e with chunk := loadedChunk i e }) h hc .pollCtrl)

/-- A control byte of the poll that is not acknowledged (R131). -/
theorem exec_pollCtrl_nack (hrun : s.Runs i) (h : s.Alone) (hp : e.phase = .pollCtrl)
    (hnack : controlAcked s.params s.banks s.blk.devsel = false) (hd : d.busy = s.dev.busy) :
    exec i (s.onBus e .started ev d) =
      .next (s.onBus { e with phase := .pollStart } .opened (ev ++ [.write s.blk.devsel .nack]) d) := by
  rw [(onBus_runs hrun).exec_pollCtrl hp]
  simp only [pollCtrl, onBus_devsel, busWrite_nack_onBus h hnack hd]
  rfl

/-- An EEPROM operation in progress whose bank is ready, the bus between two transactions. -/
structure State.Served (i : Instr) (s : State) : Prop where
  runs : s.Runs i
  legal : legalSelect s.blk.devsel
  ready : s.ready
  quiet : s.busQuiet

theorem State.Served.alone (h : s.Served i) : s.Alone := h.quiet.alone h.ready.1

theorem State.Served.not_busy (h : s.Served i) : s.dev.busy = false := h.ready.not_busy

/-- The write-phase control byte that the bank acknowledges (R63, R74). -/
theorem busWrite_devsel_onBus (h : s.Served i) (hd : d.busy = false) :
    busWrite s.blk.devsel (s.onBus e .started ev d) =
      (.ack, s.onBus e .opened (ev ++ [.write s.blk.devsel .ack]) { d with mode := .writeAddr0 }) := by
  have hw := busWrite_control_onBus (e := e) (ev := ev) h.alone rfl h.ready.2 (hd.trans h.not_busy.symm)
  rwa [legalSelect_bit0 h.legal] at hw

/-- The control byte of the poll that is acknowledged: the transaction's own start follows, or with EE_POLL_MERGED the address (R131,
R132). -/
theorem exec_pollCtrl_ack (h : s.Served i) (hp : e.phase = .pollCtrl) (hd : d.busy = false) :
    exec i (s.onBus e .started ev d) =
      .next (s.onBus { e with phase := if s.params.pollMerged then .tAddrHi else .tStart } .opened
        (ev ++ [.write s.blk.devsel .ack]) { d with mode := .writeAddr0 }) := by
  rw [(onBus_runs h.runs).exec_pollCtrl hp]
  simp only [pollCtrl, onBus_devsel, busWrite_devsel_onBus h hd]
  rfl

/-- The transaction's own start condition and control byte (R132, R150). -/
theorem execTimes_ownStart (h : s.Served i) (hp : e.phase = .tStart) (hd : d.busy = false) (hc : bankOpenLatch d = false) :
    execTimes 2 i (s.onBus e .opened ev d) =
      .next (s.onBus { e with phase := .tAddrHi } .opened (ev ++ [.start, .write s.blk.devsel .ack]) { d with mode := .writeAddr0 }) := by
  have hctrl := busWrite_devsel_onBus (e := { e with phase := .tCtrlW }) (ev := ev ++ [.start]) (d := bankOnStart d) h hd
  rw [execTimes_succ (((onBus_runs h.runs).exec_tStart hp).trans (startPhase_onBus h.alone hc .tCtrlW)),
    execTimes_one ((onBus_runs h.runs).exec_tCtrlW rfl)]
  simp only [bytePhase, onBus_devsel, hctrl, onBus_setPhase, List.append_assoc]
  rfl

theorem two_le_openingSteps (s : State) : 2 ≤ s.openingSteps := by
  unfold State.openingSteps
  split <;> decide

theorem openingSteps_congr {t : State} (h : t.params = s.params) : t.openingSteps = s.openingSteps := by
  simp only [State.openingSteps, h]

/-- From an acknowledged control byte of the poll to the address: nothing more with EE_POLL_MERGED, else the transaction's own start and
control byte (R116). -/
theorem execTimes_acked (h : s.Served i) (hp : e.phase = .pollCtrl) (hd : d.busy = false) (hc : bankOpenLatch d = false) :
    execTimes (s.openingSteps - 1) i (s.onBus e .started ev d) =
      .next (s.onBus { e with phase := .tAddrHi } .opened (ev ++ s.openingEvents.tail) { d with mode := .writeAddr0 }) := by
  have hack := exec_pollCtrl_ack (ev := ev) h hp hd
  cases hm : s.params.pollMerged with
  | true =>
    simp only [hm, if_true] at hack
    simp only [State.openingSteps, State.openingEvents, hm, if_true]
    exact execTimes_one hack
  | false =>
    simp only [hm, Bool.false_eq_true, if_false] at hack
    simp only [State.openingSteps, State.openingEvents, hm, Bool.false_eq_true, if_false]
    rw [execTimes_succ hack]
    refine (execTimes_ownStart (d := { d with mode := .writeAddr0 }) h rfl hd hc).trans ?_
    rw [List.append_assoc]
    rfl

/-- The two address bytes (R64, R75). -/
theorem execTimes_address (h : s.Served i) (hp : e.phase = .tAddrHi) (hb : d.busy = false) (hm : d.mode = .writeAddr0) :
    execTimes 2 i (s.onBus e .opened ev d) =
      .next (s.onBus { e with phase := if readsEeprom i then .tRstart else .tData } .opened (ev ++ addressEvents e.addr)
        { d with ptr := e.addr, mode := .writeData, latch := [] }) := by
  have hhi := busWrite_byte_onBus (e := e) (ev := ev) (d := d) h.alone (by simp [bankTakes, hb, hm]) (addrHi e.addr)
  have hd := bankOnByte_addrHi hb hm s.params.eeCapacity (addrHi e.addr)
  have hlo := busWrite_byte_onBus (e := { e with phase := .tAddrLo }) (ev := ev ++ [.write (addrHi e.addr) .ack])
    (d := bankOnByte s.params.eeCapacity (addrHi e.addr) d) h.alone (by simp [bankTakes, hd, hb]) (addrLo e.addr)
  rw [bankOnByte_address hb hm, addrHi_append_addrLo] at hlo
  rw [execTimes_succ ((onBus_runs h.runs).exec_tAddrHi hp)]
  simp only [bytePhase, onBus_ee, hhi, onBus_setPhase]
  rw [execTimes_succ ((onBus_runs h.runs).exec_tAddrLo rfl)]
  simp only [bytePhase, onBus_ee, hlo, onBus_setPhase]
  simp [execTimes, addressEvents]

/-! ## The poll -/

/-- What `m` primitives of a poll that is not acknowledged put on the bus (R131). -/
def State.polledEvents (m : Nat) (s : State) : List BusEvent := s.pollEvents (m / 2) ++ if m % 2 = 1 then [.start] else []

/-- `s`, at the first primitive of an operation, after `m` primitives of a poll that is not acknowledged (R131): a start condition and a control
byte in turn. -/
def State.polled (i : Instr) (m : Nat) (s : State) : State :=
  s.onBus
    { s.blk.ee with
      chunk := if m = 0 then s.blk.ee.chunk else loadedChunk i s.blk.ee
      phase := if m % 2 = 1 then .pollCtrl else .pollStart }
    (if m = 0 then s.blk.bus else if m % 2 = 1 then .started else .opened) (s.polledEvents m) s.dev

theorem polled_zero (hp : s.blk.ee.phase = .pollStart) : s.polled i 0 = s := by
  refine Eq.trans ?_ (onBus_self s)
  simp [State.polled, State.polledEvents, State.pollEvents, ← hp]

theorem polled_odd (i : Instr) (k : Nat) (s : State) : s.polled i (2 * k + 1) =
    s.onBus { s.blk.ee with chunk := loadedChunk i s.blk.ee, phase := .pollCtrl } .started (s.pollEvents k ++ [.start]) s.dev := by
  have hmod : (2 * k + 1) % 2 = 1 := by omega
  have hdiv : (2 * k + 1) / 2 = k := by omega
  simp [State.polled, State.polledEvents, hmod, hdiv]

theorem pollEvents_succ (k : Nat) (s : State) : s.pollEvents (k + 1) = s.pollEvents k ++ [.start, .write s.blk.devsel .nack] := by
  simp [State.pollEvents, List.replicate_succ']

theorem loadedChunk_idem (i : Instr) (e : EeSeq) (m : Nat) (p : EePhase) :
    loadedChunk i { e with chunk := if m = 0 then e.chunk else loadedChunk i e, phase := p } = loadedChunk i e := by
  simp only [loadedChunk]
  split
  · rfl
  · split
    · rfl
    · split <;> rfl

/-- The start condition of a turn of the poll (R131). -/
theorem exec_polled_even (hrun : s.Runs i) (hd : s.params.device = .reference) (hq : s.busQuiet) (k : Nat) :
    exec i (s.polled i (2 * k)) = .next (s.polled i (2 * k + 1)) := by
  obtain ⟨hidle, hclosed⟩ : s.dev.mode = .idle ∧ bankOpenLatch s.dev = false := hq s.selected
  have hmod : 2 * k % 2 = 0 := by omega
  have hdiv : 2 * k / 2 = k := by omega
  rw [polled_odd, State.polled, exec_pollStart_onBus hrun (hq.alone hd) (by simp [hmod]) hclosed, bankOnStart_of_idle hidle,
    loadedChunk_idem]
  simp [State.polledEvents, hmod, hdiv]

/-- The control byte of a turn of the poll that is not acknowledged (R131). -/
theorem exec_polled_odd (hrun : s.Runs i) (hd : s.params.device = .reference) (hq : s.busQuiet)
    (hnack : controlAcked s.params s.banks s.blk.devsel = false) (k : Nat) :
    exec i (s.polled i (2 * k + 1)) = .next (s.polled i (2 * k + 2)) := by
  have hmod : (2 * k + 2) % 2 = 0 := by omega
  have hdiv : (2 * k + 2) / 2 = k + 1 := by omega
  rw [polled_odd, exec_pollCtrl_nack hrun (hq.alone hd) rfl hnack rfl]
  simp [State.polled, State.polledEvents, hmod, hdiv, pollEvents_succ]

/-- While the bank does not acknowledge, the poll goes on for as many primitives as one likes (R78, R131). -/
theorem execTimes_polled (hrun : s.Runs i) (hp : s.blk.ee.phase = .pollStart) (hd : s.params.device = .reference) (hq : s.busQuiet)
    (hnack : controlAcked s.params s.banks s.blk.devsel = false) (m : Nat) : execTimes m i s = .next (s.polled i m) := by
  induction m with
  | zero => rw [polled_zero hp]; rfl
  | succ m ih =>
    rw [execTimes_add ih 1]
    obtain ⟨k, rfl | rfl⟩ := Nat.even_or_odd' m
    · exact execTimes_one (exec_polled_even hrun hd hq k)
    · exact execTimes_one (exec_polled_odd hrun hd hq hnack k)

/-- The commit of the selected bank in the middle of a poll is its commit before it (R76, R78). -/
theorem commitStep_polled (i : Instr) (m : Nat) (s : State) :
    commitStep s.selected (s.polled i m) = (commitStep s.selected s).polled i m := by
  simp [State.polled, State.onBus, State.dev, commitStep, State.setBanks, State.selected, setBank_setBank,
    State.polledEvents, State.pollEvents]

/-- Once the bank is ready the poll ends, wherever it stands, and the transaction is open up to the address (R78, R131). -/
theorem execTimes_opening (h : s.Served i) (m : Nat) :
    execTimes (s.openingSteps - m % 2) i (s.polled i m) =
      .next (s.onBus { s.blk.ee with chunk := loadedChunk i s.blk.ee, phase := .tAddrHi } .opened
        (s.pollEvents (m / 2) ++ s.openingEvents) { s.dev with mode := .writeAddr0 }) := by
  have hclosed : bankOpenLatch s.dev = false := (h.quiet s.selected).2
  have hodd (k : Nat) : execTimes (s.openingSteps - 1) i (s.polled i (2 * k + 1)) =
      .next (s.onBus { s.blk.ee with chunk := loadedChunk i s.blk.ee, phase := .tAddrHi } .opened
        (s.pollEvents k ++ s.openingEvents) { s.dev with mode := .writeAddr0 }) := by
    rw [polled_odd, execTimes_acked h rfl h.not_busy hclosed, List.append_assoc]
    rfl
  obtain ⟨k, rfl | rfl⟩ := Nat.even_or_odd' m
  · have hmod : 2 * k % 2 = 0 := by omega
    have hdiv : 2 * k / 2 = k := by omega
    have hsteps : s.openingSteps = s.openingSteps - 1 + 1 := by
      have := two_le_openingSteps s
      omega
    rw [hmod, hdiv, Nat.sub_zero, hsteps, execTimes_succ (exec_polled_even h.runs h.ready.1 h.quiet k), hodd]
  · have hmod : (2 * k + 1) % 2 = 1 := by omega
    have hdiv : (2 * k + 1) / 2 = k := by omega
    rw [hmod, hdiv, hodd]

/-- From wherever the poll stands to the end of the address (R116). -/
theorem execTimes_addressed (h : s.Served i) (m : Nat) :
    execTimes (s.openingSteps - m % 2 + 2) i (s.polled i m) =
      .next (s.onBus
        { s.blk.ee with chunk := loadedChunk i s.blk.ee, phase := if readsEeprom i then .tRstart else .tData } .opened
        (s.pollEvents (m / 2) ++ (s.openingEvents ++ addressEvents s.blk.ee.addr))
        { s.dev with ptr := s.blk.ee.addr, mode := .writeData, latch := [] }) := by
  rw [execTimes_add (execTimes_opening h m), ← List.append_assoc]
  exact execTimes_address (d := { s.dev with mode := .writeAddr0 }) h rfl h.not_busy rfl

end

end Sys2Proof.Machine
end

section
/-! SUPPORT. Whole reads of a ready bank, EERDB and EERDBLK, from wherever their poll stands to their end (40_eeprom_read.md R132 to R134). -/

namespace Sys2Proof.Machine

/-! ## Cells at consecutive addresses -/

/-- The bytes `ds` at `k`, `k + 1`, .. -/
def cellsFrom (k : Nat) (ds : List Byte) : List Host.Cell := ds.mapIdx fun j b => (k + j, b)

theorem cellsFrom_cons (k : Nat) (d : Byte) (ds : List Byte) : cellsFrom k (d :: ds) = (k, d) :: cellsFrom (k + 1) ds := by
  simp [cellsFrom, Nat.add_assoc, Nat.add_comm 1]

/-- What an address reads as after bytes are stored from `k` on. -/
theorem memRead_memWriteAll_cellsFrom (m : Memory) (k : Nat) (ds : List Byte) (a : Nat) :
    memRead (memWriteAll m (cellsFrom k ds)) a = if k ≤ a ∧ a < k + ds.length then ds[a - k]? else memRead m a := by
  induction ds generalizing m k with
  | nil => simp [cellsFrom, memWriteAll]
  | cons d ds ih =>
    rw [cellsFrom_cons]
    show memRead (memWriteAll (memWrite m k d) (cellsFrom (k + 1) ds)) a = _
    rw [ih, memRead_memWrite, List.length_cons]
    rcases Nat.lt_trichotomy a k with h | rfl | h
    · rw [if_neg (by omega), if_neg (by omega), if_neg (by omega)]
    · simp
    · obtain ⟨j, rfl⟩ : ∃ j, a = k + 1 + j := ⟨a - (k + 1), by omega⟩
      by_cases hj : j < ds.length
      · rw [if_pos (by omega), if_pos (by omega), show k + 1 + j - k = j + 1 by omega, Nat.add_sub_cancel_left,
          List.getElem?_cons_succ]
      · rw [if_neg (by omega), if_neg (by omega), if_neg (by omega)]

/-! ## The data of a read -/

theorem eepromBytes_succ (s : State) (b : Bank) (a : Half) (n : Nat) :
    eepromBytes s b a (n + 1) = eepromByte s b (a.toNat % s.params.eeCapacity) :: eepromBytes s b (a + 1) n := by
  have ha := a.isLt
  have hone : (1 : Half).toNat = 1 := rfl
  simp only [eepromBytes, List.range_succ_eq_map, List.map_cons, List.map_map, Nat.add_zero, Nat.mod_eq_of_lt ha]
  congr 1
  refine List.map_congr_left fun j _ => ?_
  have hj : (a.toNat + (j + 1)) % 65536 = ((a + 1).toNat + j) % 65536 := by
    rw [BitVec.toNat_add, hone]
    omega
  exact congrArg (fun x => eepromByte s b (x % s.params.eeCapacity)) hj

section
variable {i : Instr} {s : State} {e : EeSeq} {bus : BusState} {ev : List BusEvent} {d : BankDev}

/-- A bank that holds what it held in `s` drives the bytes of `s` (R77). -/
theorem bankData_of_mem (hmem : d.mem = s.dev.mem) :
    bankData s.selected s.params.eeCapacity d = eepromByte s s.selected (d.ptr.toNat % s.params.eeCapacity) := by
  simp only [bankData, eepromByte, hmem]
  rfl

theorem bankAfterRead_of_read (hm : d.mode = .read) (m : Ack) :
    bankAfterRead m d = { d with ptr := d.ptr + 1, mode := if m = .ack then .read else .idle } := by
  simp [bankAfterRead, hm]

/-- The events of a read after its address: the repeated start and the read-phase control byte (R116, R132). -/
theorem execTimes_readControl (h : s.Served i) (hi : readsEeprom i = true) (hp : e.phase = .tRstart) (hd : d.busy = false)
    (hc : bankOpenLatch d = false) : execTimes 2 i (s.onBus e .opened ev d) =
      .next (s.onBus { e with phase := .tData } .opened (ev ++ [.start, .write (readCode s.blk.devsel) .ack])
        { d with mode := .read }) := by
  have hctrl := busWrite_control_onBus (e := { e with phase := .tCtrlR }) (ev := ev ++ [.start]) (d := bankOnStart d) h.alone
    (controlBank_readCode s.blk.devsel) ((controlAcked_readCode ..).trans h.ready.2) (hd.trans h.not_busy.symm)
  rw [readCode_bit0, if_pos rfl] at hctrl
  rw [execTimes_succ (((onBus_runs h.runs).exec_tRstart hi hp).trans (startPhase_onBus h.alone hc .tCtrlR)),
    execTimes_one ((onBus_runs h.runs).exec_tCtrlR hi rfl)]
  simp only [bytePhase, onBus_devsel, hctrl, onBus_setPhase, List.append_assoc]
  rfl

/-- From wherever the poll stands to the first byte of a read (R116). -/
theorem execTimes_readOpened (h : s.Served i) (hi : readsEeprom i = true) (m : Nat) :
    execTimes (s.openingSteps - m % 2 + 4) i (s.polled i m) =
      .next (s.onBus { s.blk.ee with chunk := loadedChunk i s.blk.ee, phase := .tData } .opened
        (s.pollEvents (m / 2) ++ (s.openingEvents ++ addressEvents s.blk.ee.addr ++ [.start, .write (readCode s.blk.devsel) .ack]))
        { s.dev with ptr := s.blk.ee.addr, mode := .read, latch := [] }) := by
  rw [← Nat.add_assoc _ 2 2, execTimes_add (execTimes_addressed h m), hi, if_pos rfl]
  refine (execTimes_readControl (e := { s.blk.ee with chunk := loadedChunk i s.blk.ee, phase := .tRstart })
    (d := { s.dev with ptr := s.blk.ee.addr, mode := .writeData, latch := [] }) h hi rfl h.not_busy (by simp [bankOpenLatch])).trans ?_
  simp only [List.append_assoc]

/-! ## EERDB -/

theorem exec_eerdb_tData {a : Half} (hrun : s.Runs (.eerdb a)) (hp : s.blk.ee.phase = .tData) : exec (.eerdb a) s =
    .next (((busRead .nack s).2.setEe { (busRead .nack s).2.blk.ee with rdByte := (busRead .nack s).1 }).setPhase .tStop) := by
  rw [exec_of_own hrun.busy hrun.op]
  simp [engineOf, eerdbStep, memReadStep, hp]

theorem exec_eerdb_tStop {a : Half} (hrun : s.Runs (.eerdb a)) (hp : s.blk.ee.phase = .tStop) : exec (.eerdb a) s =
    .next (eeDone 1 ((busStop s).blk.ee.rdByte.zeroExtend 16) (busStop s)) := by
  rw [exec_of_own hrun.busy hrun.op]
  simp only [engineOf, eerdbStep, memReadStep, hp]

theorem bankOnStop_of_empty (hl : d.latch = []) (hm : d.mode = .idle) : bankOnStop d = d :=
  bankOnStop_of_quiet hm (by simp [bankOpenLatch, hl])

/-- The one byte of EERDB, and its end (R132, R133). -/
theorem execTimes_eerdb_data {a : Half} (h : s.Served (.eerdb a)) (hp : e.phase = .tData) (hm : d.mode = .read) (hl : d.latch = [])
    {b : Byte} (hb : bankData s.selected s.params.eeCapacity d = b) : execTimes 2 (.eerdb a) (s.onBus e bus ev d) =
      .next (eeDone 1 (b.zeroExtend 16) (s.onBus { e with rdByte := b, phase := .tStop } .released
        (ev ++ dataReads [b] ++ [.stop]) { d with ptr := d.ptr + 1, mode := .idle })) := by
  have hread : exec (.eerdb a) (s.onBus e bus ev d) =
      .next (s.onBus { e with rdByte := b, phase := .tStop } .opened (ev ++ dataReads [b]) { d with ptr := d.ptr + 1, mode := .idle }) := by
    rw [exec_eerdb_tData (onBus_runs h.runs) hp, busRead_onBus h.alone hm, hb, bankAfterRead_of_read hm]
    rfl
  rw [execTimes_succ hread, execTimes_one (exec_eerdb_tStop (onBus_runs h.runs) rfl), busStop_onBus h.alone, bankOnStop_of_empty]
  · rfl
  · exact hl
  · rfl

/-- EERDB from wherever its poll stands to its end: the byte at EE_ADDR is the result (R132, R133). -/
theorem execTimes_eerdb {a : Half} (h : s.Served (.eerdb a)) (m : Nat) {b : Byte}
    (hb : eepromByte s s.selected (s.blk.ee.addr.toNat % s.params.eeCapacity) = b) :
    execTimes (s.openingSteps - m % 2 + 6) (.eerdb a) (s.polled (.eerdb a) m) =
      .next (eeDone 1 (b.zeroExtend 16) (s.onBus { s.blk.ee with rdByte := b, phase := .tStop } .released
        (s.pollEvents (m / 2) ++ s.readEvents s.blk.ee.addr [b])
        { s.dev with ptr := s.blk.ee.addr + 1, mode := .idle, latch := [] })) := by
  rw [← Nat.add_assoc _ 4 2, execTimes_add (execTimes_readOpened h rfl m)]
  have hdata := bankData_of_mem (s := s) (d := { s.dev with ptr := s.blk.ee.addr, mode := .read, latch := [] }) rfl
  refine (execTimes_eerdb_data (e := { s.blk.ee with chunk := loadedChunk (.eerdb a) s.blk.ee, phase := .tData }) h rfl rfl rfl
    (hdata.trans hb)).trans ?_
  simp [State.readEvents, loadedChunk, Instr.opcode]

/-! ## EERDBLK -/

section
variable {a : Half} {l : BitVec 7}

theorem exec_eerdblk_tData {m : Ack} {next : EePhase} (hrun : s.Runs (.eerdblk a l)) (hp : s.blk.ee.phase = .tData)
    (hm : s.blk.ee.done.toNat + 1 < s.blk.ee.len.toNat ∧ m = .ack ∧ next = .tData ∨
      s.blk.ee.done.toNat + 1 = s.blk.ee.len.toNat ∧ m = .nack ∧ next = .tStop) :
    exec (.eerdblk a l) s = .next ((storeDatum (busRead m s).1 (busRead m s).2).setPhase next) := by
  rw [exec_of_own hrun.busy hrun.op]
  simp only [engineOf, eerdblkStep_eq, memReadStep, hp]
  rcases hm with ⟨hlt, rfl, rfl⟩ | ⟨heq, rfl, rfl⟩
  · rw [if_pos hlt]
  · rw [if_neg (by omega), if_pos (by omega)]

theorem exec_eerdblk_tStop (hrun : s.Runs (.eerdblk a l)) (hp : s.blk.ee.phase = .tStop) : exec (.eerdblk a l) s =
    .next (eeDone (busStop s).blk.ee.done ((busStop s).blk.ee.done.zeroExtend 16) (busStop s)) := by
  rw [exec_of_own hrun.busy hrun.op]
  simp only [engineOf, eerdblkStep_eq, memReadStep, hp]

/-- A byte read goes to EE_BUF beside the transaction (R134). -/
theorem storeDatum_onBus (b : Byte) (hlt : e.done.toNat < Config.eeMaxLen) : storeDatum b (s.onBus e bus ev d) =
    (s.setBuf (memWrite s.blk.buf e.done.toNat b)).onBus { e with done := e.done + 1 } bus ev d := by
  have hw : (s.onBus e bus ev d).bufWrite e.done.toNat b = (s.setBuf (memWrite s.blk.buf e.done.toNat b)).onBus e bus ev d := by
    rw [State.bufWrite, if_pos hlt]
    rfl
  rw [storeDatum, onBus_ee, hw]
  rfl

theorem State.Served.setBuf (h : s.Served i) (m : Memory) : (s.setBuf m).Served i :=
  ⟨h.runs.congr rfl rfl, h.legal, h.ready, h.quiet⟩

theorem dataReads_cons {ds : List Byte} (h : ds ≠ []) (d : Byte) : dataReads (d :: ds) = .read d .ack :: dataReads ds := by
  cases ds with
  | nil => exact absurd rfl h
  | cons e ds => rfl

/-- A byte of EERDBLK, the last one or another (R132, R134). -/
theorem exec_eerdblk_onBus {m : Ack} {next : EePhase} (h : s.Served (.eerdblk a l)) (hp : e.phase = .tData) (hm : d.mode = .read)
    (hn : e.done.toNat + 1 < e.len.toNat ∧ m = .ack ∧ next = .tData ∨
      e.done.toNat + 1 = e.len.toNat ∧ m = .nack ∧ next = .tStop)
    {b : Byte} (hb : bankData s.selected s.params.eeCapacity d = b) : exec (.eerdblk a l) (s.onBus e bus ev d) =
      .next ((s.setBuf (memWrite s.blk.buf e.done.toNat b)).onBus { e with done := e.done + 1, phase := next } .opened
        (ev ++ [.read b m]) { d with ptr := d.ptr + 1, mode := if m = .ack then .read else .idle }) := by
  have hbuf : e.done.toNat < Config.eeMaxLen := by
    have hlen := e.len.isLt
    unfold Config.eeMaxLen
    omega
  rw [exec_eerdblk_tData (onBus_runs h.runs) hp hn, busRead_onBus h.alone hm, hb, bankAfterRead_of_read hm, storeDatum_onBus b hbuf]
  rfl

/-- The bytes of EERDBLK, from the next one to the last: to EE_BUF[EE_DONE] on, all but the last acknowledged (R132, R134). -/
theorem execTimes_eerdblk_data (n : Nat) (h : s.Served (.eerdblk a l)) (hp : e.phase = .tData)
    (hn : e.done.toNat + (n + 1) = e.len.toNat) (hm : d.mode = .read) (hmem : d.mem = s.dev.mem) :
    execTimes (n + 1) (.eerdblk a l) (s.onBus e bus ev d) =
      .next ((s.setBuf (memWriteAll s.blk.buf (cellsFrom e.done.toNat (eepromBytes s s.selected d.ptr (n + 1))))).onBus
        { e with done := e.len, phase := .tStop } .opened (ev ++ dataReads (eepromBytes s s.selected d.ptr (n + 1)))
        { d with ptr := d.ptr + BitVec.ofNat 16 (n + 1), mode := .idle }) := by
  induction n generalizing s e ev d bus with
  | zero =>
    have hlast : e.done + 1 = e.len := by bv_omega
    rw [execTimes_one (exec_eerdblk_onBus h hp hm (.inr ⟨hn, rfl, rfl⟩) (bankData_of_mem hmem)), hlast,
      eepromBytes_succ s _ d.ptr, cellsFrom_cons]
    rfl
  | succ n ih =>
    have hdone : (e.done + 1).toNat = e.done.toNat + 1 := by bv_omega
    have hptr : d.ptr + 1 + BitVec.ofNat 16 (n + 1) = d.ptr + BitVec.ofNat 16 (n + 1 + 1) := by bv_omega
    have hdata := bankData_of_mem hmem
    generalize hb : eepromByte s s.selected (d.ptr.toNat % s.params.eeCapacity) = b at hdata
    have htail := ih (s := s.setBuf (memWrite s.blk.buf e.done.toNat b)) (bus := .opened) (ev := ev ++ [.read b .ack])
      (e := { e with done := e.done + 1, phase := .tData }) (d := { d with ptr := d.ptr + 1, mode := .read }) (h.setBuf _) rfl
      (by simp only [hdone]; omega) rfl hmem
    simp only [hdone, hptr, List.append_assoc] at htail
    rw [execTimes_succ (exec_eerdblk_onBus h hp hm (.inl ⟨by omega, rfl, rfl⟩) hdata),
      eepromBytes_succ s _ d.ptr, cellsFrom_cons, dataReads_cons (by simp [eepromBytes]), hb]
    exact htail

/-- EERDBLK from wherever its poll stands to its end: one transaction, whatever pages it spans (R132, R134). -/
theorem execTimes_eerdblk (h : s.Served (.eerdblk a l)) (m : Nat) (hlen : s.blk.ee.len ≠ 0) (hdone : s.blk.ee.done = 0) {ds : List Byte}
    (hds : eepromBytes s s.selected s.blk.ee.addr s.blk.ee.len.toNat = ds) :
    execTimes (s.openingSteps - m % 2 + 5 + s.blk.ee.len.toNat) (.eerdblk a l) (s.polled (.eerdblk a l) m) =
      .next (eeDone s.blk.ee.len (s.blk.ee.len.zeroExtend 16) ((s.setBuf (memWriteAll s.blk.buf (cellsFrom 0 ds))).onBus
        { s.blk.ee with done := s.blk.ee.len, phase := .tStop } .released
        (s.pollEvents (m / 2) ++ s.readEvents s.blk.ee.addr ds)
        { s.dev with ptr := s.blk.ee.addr + BitVec.ofNat 16 s.blk.ee.len.toNat, mode := .idle, latch := [] })) := by
  obtain ⟨n, hn⟩ : ∃ n, s.blk.ee.len.toNat = n + 1 :=
    Nat.exists_eq_succ_of_ne_zero fun h0 => hlen (BitVec.eq_of_toNat_eq (by simpa using h0))
  have hdata := execTimes_eerdblk_data (s := s) (bus := .opened)
    (ev := s.pollEvents (m / 2) ++ (s.openingEvents ++ addressEvents s.blk.ee.addr ++ [.start, .write (readCode s.blk.devsel) .ack]))
    (e := { s.blk.ee with chunk := loadedChunk (.eerdblk a l) s.blk.ee, phase := .tData })
    (d := { s.dev with ptr := s.blk.ee.addr, mode := .read, latch := [] }) n h rfl (by simp [hdone, hn]) rfl rfl
  have hsteps : s.openingSteps - m % 2 + 5 + s.blk.ee.len.toNat = s.openingSteps - m % 2 + 4 + (n + 1 + 1) := by omega
  rw [hsteps, execTimes_add (execTimes_readOpened h rfl m), execTimes_add hdata,
    execTimes_one (exec_eerdblk_tStop (onBus_runs (h.setBuf _).runs) rfl), busStop_onBus (h.setBuf _).alone, bankOnStop_of_empty]
  · rw [← hn, hds, hdone]
    simp [State.readEvents, loadedChunk, Instr.opcode, State.openingEvents]
  · rfl
  · rfl

end

end

end Sys2Proof.Machine
end

section
/-! SUPPORT. Whole page writes to a ready bank, that of EEWRB and each one of EEWRBLK, from wherever their poll stands to their stop condition, and
the write cycle they start (20_memory.md R75, R76, 41_eeprom_write.md R150 to R155). -/

namespace Sys2Proof.Machine

/-- The selected bank after a page write of `ds` at `a`: the bytes latched each at its place in the page, the write cycle started (R75, R76). -/
def State.writtenDev (s : State) (a : Half) (ds : List Byte) : BankDev :=
  bankOnStop { s.dev with
    ptr := BitVec.ofNat 16 (pageAddress a.toNat ds.length), mode := .writeData
    latch := ds.mapIdx fun j b => (pageAddress a.toNat j % s.params.eeCapacity, b) }

section
variable {i : Instr} {s t : State} {e : EeSeq} {bus : BusState} {ev : List BusEvent} {d : BankDev} {a : Half} {l : BitVec 7}

/-! ## Data bytes -/

theorem bankTakes_datum (hb : d.busy = false) (hm : d.mode = .writeData) : bankTakes d = true := by
  simp [bankTakes, hb, hm]

/-- A data byte that the selected bank takes (R75, R150). -/
theorem writeDatum_onBus (h : s.Alone) (hb : d.busy = false) (hm : d.mode = .writeData) (v : Byte) :
    writeDatum v (s.onBus e .opened ev d) =
      s.onBus { e with chunk := e.chunk - 1, phase := if e.chunk = 1 then .tStop else .tData } .opened (ev ++ [.write v .ack])
        (bankOnByte s.params.eeCapacity v d) := by
  rw [writeDatum, busWrite_byte_onBus h (bankTakes_datum hb hm)]
  rfl

/-- All data bytes of a page write, and then its stop condition, leave the bank as `State.writtenDev` says. -/
theorem bankOnStop_data (s : State) (a : Half) (ds : List Byte) (hb : s.dev.busy = false) :
    bankOnStop (ds.foldl (fun x b => bankOnByte s.params.eeCapacity b x) { s.dev with ptr := a, mode := .writeData, latch := [] }) =
      s.writtenDev a ds := by
  rw [bankOnByte_data s.params.eeCapacity ds (d := { s.dev with ptr := a, mode := .writeData, latch := [] }) hb rfl]
  rfl

/-! ## EEWRB -/

theorem exec_eewrb_tData {v : Byte} (hrun : s.Runs (.eewrb a v)) (hp : s.blk.ee.phase = .tData) (hc : s.blk.ee.chunk ≠ 0) :
    exec (.eewrb a v) s = .next (writeDatum s.blk.ee.val s) := by
  rw [exec_of_own hrun.busy hrun.op]
  exact memWriteStep_tData hp hc

theorem exec_eewrb_tStop {v : Byte} (hrun : s.Runs (.eewrb a v)) (hp : s.blk.ee.phase = .tStop) :
    exec (.eewrb a v) s = .next (eeDone 1 1 (busStop s)) := by
  rw [exec_of_own hrun.busy hrun.op]
  exact memWriteStep_tStop hp

/-- EEWRB from wherever its poll stands to its end (R150, R152). -/
theorem execTimes_eewrb {v : Byte} (h : s.Served (.eewrb a v)) (m : Nat) :
    execTimes (s.openingSteps - m % 2 + 4) (.eewrb a v) (s.polled (.eewrb a v) m) =
      .next (eeDone 1 1 (s.onBus { s.blk.ee with chunk := 0, phase := .tStop } .released
        (s.pollEvents (m / 2) ++ s.writeEvents s.blk.ee.addr [s.blk.ee.val]) (s.writtenDev s.blk.ee.addr [s.blk.ee.val]))) := by
  have hdatum := writeDatum_onBus (e := { s.blk.ee with chunk := 1, phase := .tData })
    (ev := s.pollEvents (m / 2) ++ (s.openingEvents ++ addressEvents s.blk.ee.addr))
    (d := { s.dev with ptr := s.blk.ee.addr, mode := .writeData, latch := [] }) h.alone h.not_busy rfl s.blk.ee.val
  have hdata := (exec_eewrb_tData (onBus_runs h.runs) rfl (by simp)).trans (congrArg Host.Outcome.next hdatum)
  rw [← Nat.add_assoc _ 2 2, execTimes_add (execTimes_addressed h m)]
  refine (execTimes_succ hdata 1).trans ?_
  rw [execTimes_one (exec_eewrb_tStop (onBus_runs h.runs) rfl), busStop_onBus h.alone, ← bankOnStop_data s _ _ h.not_busy]
  simp [State.writeEvents]

/-! ## A page write of EEWRBLK -/

theorem exec_eewrblk_tData (hrun : s.Runs (.eewrblk a l)) (hp : s.blk.ee.phase = .tData) (hc : s.blk.ee.chunk ≠ 0) :
    exec (.eewrblk a l) s =
      .next (writeDatum (s.bufRead (writeIndex s.blk.ee)).1 (s.bufRead (writeIndex s.blk.ee)).2) := by
  rw [exec_of_own hrun.busy hrun.op]
  exact memWriteStep_tData hp hc

theorem exec_eewrblk_tStop (hrun : s.Runs (.eewrblk a l)) (hp : s.blk.ee.phase = .tStop) :
    exec (.eewrblk a l) s = .next (chunkDone (busStop s)) := by
  rw [exec_of_own hrun.busy hrun.op]
  exact memWriteStep_tStop hp

theorem State.Served.setEnv (h : s.Served i) (E : Env) : (s.setEnv E).Served i :=
  ⟨h.runs.congr rfl rfl, h.legal, h.ready, h.quiet⟩

/-- A look-up of EE_BUF beside the transaction: the byte listed, or a fresh free one (R27, U10). -/
theorem bufRead_onBus (k : Nat) (s : State) : ∃ v E, (∀ w, memRead s.blk.buf k = some w → v = w) ∧
    ∀ e bus ev d, (s.onBus e bus ev d).bufRead k = (v, (s.setEnv E).onBus e bus ev d) := by
  cases hr : memRead s.blk.buf k with
  | some v => exact ⟨v, s.env, fun w hw => Option.some.inj hw, fun e bus ev d => bufRead_listed (s := s.onBus e bus ev d) hr⟩
  | none =>
    exact ⟨Config.freeByte s.env.draws, { s.env with draws := s.env.draws + 1 }, nofun,
      fun e bus ev d => bufRead_unlisted (s := s.onBus e bus ev d) hr⟩

/-- The bytes `ds` are EE_BUF from index `k` on, free where nothing has written it (R27, U10; log 4). -/
def State.holdsFrom (s : State) (k : Nat) (ds : List Byte) : Prop :=
  ∀ (j : Nat) (v : Byte), j < ds.length → memRead s.blk.buf (k + j) = some v → ds[j]? = some v

theorem holdsFrom_cons {k : Nat} {v : Byte} {ds : List Byte} (hv : ∀ w, memRead s.blk.buf k = some w → v = w)
    (hds : s.holdsFrom (k + 1) ds) : s.holdsFrom k (v :: ds) := by
  intro j w hj hw
  cases j with
  | zero => rw [hv w hw]; rfl
  | succ j => exact hds j w (by simpa using hj) (by rwa [Nat.add_right_comm, Nat.add_assoc])

/-- The data bytes of a page write of EEWRBLK, from the next one to the last (R150, R153). -/
theorem execTimes_eewrblk_data (n : Nat) (h : s.Served (.eewrblk a l)) (hp : e.phase = .tData) (hc : e.chunk.toNat = n + 1)
    (hle : e.chunk.toNat ≤ pageChunk e.addr e.len) (hb : d.busy = false) (hm : d.mode = .writeData) :
    ∃ (ds : List Byte) (E : Env), ds.length = n + 1 ∧ s.holdsFrom (writeIndex e) ds ∧
      execTimes (n + 1) (.eewrblk a l) (s.onBus e .opened ev d) =
        .next ((s.setEnv E).onBus { e with chunk := 0, phase := .tStop } .opened (ev ++ ds.map fun b => .write b .ack)
          (ds.foldl (fun x b => bankOnByte s.params.eeCapacity b x) d)) := by
  have hne : e.chunk ≠ 0 := fun h0 => by simp [h0] at hc
  induction n generalizing s e ev d with
  | zero =>
    obtain ⟨v, E, hv, hread⟩ := bufRead_onBus (writeIndex e) s
    refine ⟨[v], E, rfl, holdsFrom_cons hv (fun j w hj => absurd hj (by simp)), ?_⟩
    have hone : e.chunk = 1 := BitVec.eq_of_toNat_eq hc
    rw [execTimes_one (exec_eewrblk_tData (onBus_runs h.runs) hp hne), onBus_ee, hread, writeDatum_onBus (h.setEnv E).alone hb hm,
      if_pos hone, hone]
    rfl
  | succ n ih =>
    obtain ⟨v, E, hv, hread⟩ := bufRead_onBus (writeIndex e) s
    have hsub : (e.chunk - 1).toNat = n + 1 := by bv_omega
    have hmore : e.chunk ≠ 1 := by bv_omega
    have hne' : e.chunk - 1 ≠ 0 := by bv_omega
    have hindex : writeIndex { e with chunk := e.chunk - 1, phase := .tData } = writeIndex e + 1 := by
      simp only [writeIndex, hsub]
      omega
    obtain ⟨ds, E', hlen, hds, hrest⟩ := ih (s := s.setEnv E) (e := { e with chunk := e.chunk - 1, phase := .tData })
      (ev := ev ++ [.write v .ack]) (d := bankOnByte s.params.eeCapacity v d) (h.setEnv E) rfl hsub (by simp only [hsub]; omega)
      (by rw [bankOnByte_datum hb hm]; exact hb) (by rw [bankOnByte_datum hb hm]; exact hm) hne'
    rw [hindex] at hds
    refine ⟨v :: ds, E', by rw [List.length_cons, hlen], holdsFrom_cons hv hds, ?_⟩
    rw [execTimes_succ (exec_eewrblk_tData (onBus_runs h.runs) hp hne), onBus_ee, hread, writeDatum_onBus (h.setEnv E).alone hb hm,
      if_neg hmore]
    refine hrest.trans ?_
    rw [List.append_assoc]
    rfl

/-- A page write of EEWRBLK from wherever its poll stands to the step of its stop condition (R150, R153). -/
theorem execTimes_eewrblk_page (h : s.Served (.eewrblk a l)) (m : Nat) (hlen : s.blk.ee.len ≠ 0) :
    ∃ (ds : List Byte) (E : Env), ds.length = pageChunk s.blk.ee.addr s.blk.ee.len ∧ s.holdsFrom s.blk.ee.done.toNat ds ∧
      execTimes (s.openingSteps - m % 2 + 3 + pageChunk s.blk.ee.addr s.blk.ee.len) (.eewrblk a l) (s.polled (.eewrblk a l) m) =
        .next (chunkDone ((s.setEnv E).onBus { s.blk.ee with chunk := 0, phase := .tStop } .released
          (s.pollEvents (m / 2) ++ s.writeEvents s.blk.ee.addr ds) (s.writtenDev s.blk.ee.addr ds))) := by
  obtain ⟨hpos, hle⟩ := pageChunk_bounds (addr := s.blk.ee.addr) hlen
  have hlt := s.blk.ee.len.isLt
  obtain ⟨n, hn⟩ : ∃ n, pageChunk s.blk.ee.addr s.blk.ee.len = n + 1 := ⟨_, (Nat.sub_add_cancel hpos).symm⟩
  have hchunk : (loadedChunk (.eewrblk a l) s.blk.ee).toNat = n + 1 := by
    show (BitVec.ofNat 7 (pageChunk s.blk.ee.addr s.blk.ee.len)).toNat = n + 1
    rw [BitVec.toNat_ofNat, hn]
    omega
  obtain ⟨ds, E, hds, hbuf, hdata⟩ := execTimes_eewrblk_data (s := s)
    (e := { s.blk.ee with chunk := loadedChunk (.eewrblk a l) s.blk.ee, phase := .tData })
    (ev := s.pollEvents (m / 2) ++ (s.openingEvents ++ addressEvents s.blk.ee.addr))
    (d := { s.dev with ptr := s.blk.ee.addr, mode := .writeData, latch := [] }) n h rfl hchunk
    (by simp only [hchunk, hn]; exact le_refl _) h.not_busy rfl
  have hindex : writeIndex { s.blk.ee with chunk := loadedChunk (.eewrblk a l) s.blk.ee, phase := .tData } = s.blk.ee.done.toNat := by
    simp only [writeIndex, hchunk, hn]
    omega
  rw [hindex] at hbuf
  refine ⟨ds, E, hds.trans hn.symm, hbuf, ?_⟩
  have hsteps : s.openingSteps - m % 2 + 3 + pageChunk s.blk.ee.addr s.blk.ee.len = s.openingSteps - m % 2 + 2 + (n + 1 + 1) := by omega
  rw [hsteps, execTimes_add (execTimes_addressed h m)]
  refine (execTimes_add hdata 1).trans ?_
  rw [execTimes_one (exec_eewrblk_tStop (onBus_runs (h.setEnv E).runs) rfl), busStop_onBus (h.setEnv E).alone,
    bankOnStop_data s _ _ h.not_busy]
  simp [State.writeEvents]

end

end Sys2Proof.Machine
end

section
/-! SUPPORT. The write cycle after a page write, and reading back through it: an EERDB or an EERDBLK polls until the commit and then reads what was
written (20_memory.md R76 to R81, 41_eeprom_write.md R151, R153, R155). -/

namespace Sys2Proof.Machine

/-! ## The write cycle -/

/-- The selected bank is in a write cycle, the bus between two transactions: it answers no control byte, and will once the cycle has ended
(R74, R76). -/
structure State.Cycles (t : State) : Prop where
  legal : legalSelect t.blk.devsel
  quiet : t.busQuiet
  nack : controlAcked t.params t.banks t.blk.devsel = false
  ready : (commitStep t.selected t).ready

section
variable {i : Instr} {s t u : State} {a : Half} {l : BitVec 7} {ds : List Byte}

theorem State.Cycles.congr (h : t.Cycles) (hsel : u.blk.devsel = t.blk.devsel) (hv : u.banks = t.banks) (hp : u.params = t.params) :
    u.Cycles := by
  obtain ⟨ub, uv, ue, up⟩ := u
  dsimp only at hsel hv hp
  subst hv hp
  have hs : State.selected ⟨ub, t.banks, ue, t.params⟩ = t.selected := congrArg controlBank hsel
  refine ⟨by rw [hsel]; exact h.legal, h.quiet, by rw [hsel]; exact h.nack, h.ready.1, ?_⟩
  rw [hs]
  show controlAcked t.params (commitStep t.selected t).banks ub.devsel = true
  rw [hsel]
  exact h.ready.2

theorem writtenDev_busy (s : State) (a : Half) (hds : ds ≠ []) : (s.writtenDev a ds).busy = true := by
  simp [State.writtenDev, bankOnStop, hds]

/-- A page write of at least one byte starts the write cycle (R76). -/
theorem State.Served.cycles (h : s.Served i) (hds : ds ≠ []) (hsel : t.blk.devsel = s.blk.devsel) (hp : t.params = s.params)
    (hv : t.banks = setBank s.banks s.selected (s.writtenDev a ds)) : t.Cycles := by
  have hs : t.selected = s.selected := congrArg controlBank hsel
  have hbusy := writtenDev_busy s a hds
  refine ⟨by rw [hsel]; exact h.legal, fun b => ?_, ?_, by rw [← h.ready.1, ← hp]; rfl, ?_⟩
  · rw [hv, bankAt_setBank]
    split
    · exact ⟨rfl, by simp [bankOpenLatch, hbusy]⟩
    · exact h.quiet b
  · refine Bool.eq_false_iff.2 fun hack => ?_
    have hfree : (bankAt t.banks t.selected).busy = false := controlAcked_bank hack
    rw [hs, hv, bankAt_setBank_same, hbusy] at hfree
    exact absurd hfree (by decide)
  · show controlAcked t.params (setBank t.banks t.selected (bankCommit (bankAt t.banks t.selected))) t.blk.devsel = true
    rw [hs, hv, hp, hsel, bankAt_setBank_same, setBank_setBank, controlAcked_setBank]
    · exact h.ready.2
    · rw [bankCommit_of_busy hbusy]
      exact h.not_busy.symm

theorem eepromByte_eq_getD (s : State) (b : Bank) (x : Nat) :
    eepromByte s b x = (memRead (bankAt s.banks b).mem x).getD (Config.unwrittenByte b x) := by
  unfold eepromByte
  split <;> simp [*]

/-- A byte of the EEPROM after the commit of a page write: what its memory holds with the latched bytes stored (R76). -/
theorem eepromByte_written (s : State) (a : Half) (hds : ds ≠ [])
    (hv : t.banks = setBank s.banks s.selected (s.writtenDev a ds)) (b : Bank) (x : Nat) :
    eepromByte (commitStep s.selected t) b x = if b = s.selected then
      (memRead (memWriteAll s.dev.mem (ds.mapIdx fun j v => (pageAddress a.toNat j % s.params.eeCapacity, v))) x).getD
        (Config.unwrittenByte b x)
      else eepromByte s b x := by
  rw [eepromByte_eq_getD, eepromByte_eq_getD, bankAt_commitStep, hv]
  by_cases hb : b = s.selected
  · rw [if_pos hb, if_pos hb, bankAt_setBank_same, bankCommit_of_busy (writtenDev_busy s a hds)]
    rfl
  · rw [if_neg hb, if_neg hb, bankAt_setBank, if_neg hb]

/-- The bytes of a page write that stays in its page are latched at consecutive addresses (R75, R155). -/
theorem latch_eq_cellsFrom (hfit : a.toNat % 128 + ds.length ≤ 128) :
    ds.mapIdx (fun j v => (pageAddress a.toNat j % 65536, v)) = cellsFrom a.toNat ds := by
  refine List.ext_getElem (by simp [cellsFrom]) fun j hj _ => ?_
  have hj' : j < ds.length := by simpa using hj
  have ha := a.isLt
  have hplace : pageAddress a.toNat j % 65536 = a.toNat + j := by
    unfold pageAddress
    omega
  simp only [cellsFrom, List.getElem_mapIdx, hplace]

/-- After the commit of a page write inside its page the bytes stand at consecutive addresses, and every other byte is as before (R155). -/
theorem eepromByte_written_page (hds : ds ≠ []) (hfit : a.toNat % 128 + ds.length ≤ 128) (hcap : s.params.eeCapacity = 65536)
    (hv : t.banks = setBank s.banks s.selected (s.writtenDev a ds)) (b : Bank) (x : Nat) :
    eepromByte (commitStep s.selected t) b x =
      if b = s.selected ∧ a.toNat ≤ x ∧ x < a.toNat + ds.length then ds.getD (x - a.toNat) 0 else eepromByte s b x := by
  rw [eepromByte_written s a hds hv, hcap, latch_eq_cellsFrom hfit, memRead_memWriteAll_cellsFrom]
  by_cases hb : b = s.selected
  · subst hb
    by_cases hx : a.toNat ≤ x ∧ x < a.toNat + ds.length
    · have hlt : x - a.toNat < ds.length := by omega
      simp [hx, List.getElem?_eq_getElem hlt]
    · rw [if_pos rfl, if_neg hx, if_neg fun h => hx h.2]
      exact (eepromByte_eq_getD s s.selected x).symm
  · rw [if_neg hb, if_neg fun h => hb h.1]

/-- After the commit of EEWRB its byte stands at the address modulo EE_CAPACITY, and every other byte is as before (R75, R155). -/
theorem eepromByte_written_byte {v : Byte} (hv : t.banks = setBank s.banks s.selected (s.writtenDev a [v])) (b : Bank) (x : Nat) :
    eepromByte (commitStep s.selected t) b x =
      if b = s.selected ∧ x = a.toNat % s.params.eeCapacity then v else eepromByte s b x := by
  rw [eepromByte_written s a (by simp) hv]
  simp only [List.mapIdx_cons, List.mapIdx_nil, pageAddress_zero]
  show (if b = s.selected then (memRead (memWrite s.dev.mem (a.toNat % s.params.eeCapacity) v) x).getD _ else _) = _
  rw [memRead_memWrite]
  by_cases hb : b = s.selected
  · subst hb
    by_cases hx : x = a.toNat % s.params.eeCapacity
    · simp [hx]
    · rw [if_pos rfl, if_neg hx, if_neg fun h => hx h.2]
      exact (eepromByte_eq_getD s s.selected x).symm
  · rw [if_neg hb, if_neg fun h => hb h.1]

/-! ## Acceptance, and a poll through the write cycle -/

/-- The state right after acceptance of `i`. -/
def State.accepted (i : Instr) (s : State) : State := loadsOf i (s.accept i.opcode)

/-- What acceptance leaves: the banks, the parameters, EE_DEVSEL and EE_BUF; the operation is in progress (R23, R38). -/
theorem accepted_spec (hi : i.opcode ≠ 1 ∧ i.opcode ≠ 6 ∧ i.opcode ≠ 7) (s : State) : (s.accepted i).Runs i ∧
    (s.accepted i).blk.devsel = s.blk.devsel ∧ (s.accepted i).banks = s.banks ∧ (s.accepted i).params = s.params ∧
    (s.accepted i).blk.buf = s.blk.buf := by
  obtain ⟨e, x, r, h, _⟩ := loadsOf_spec i s
  rw [State.accepted, h]
  exact ⟨⟨hi, rfl, rfl⟩, rfl, rfl, rfl, rfl⟩

/-- An operation accepted on a ready bank is served. -/
theorem accepted_served (hi : i.opcode ≠ 1 ∧ i.opcode ≠ 6 ∧ i.opcode ≠ 7) (hl : legalSelect s.blk.devsel) (hr : s.ready)
    (hq : s.busQuiet) : (s.accepted i).Served i := by
  obtain ⟨hrun, hsel, hv, hp, _⟩ := accepted_spec hi s
  exact ⟨hrun, hsel ▸ hl, by rw [State.ready, hsel, hv, hp]; exact hr, by rw [State.busQuiet, hv]; exact hq⟩

/-- The first step of a run from an idle block is the acceptance. -/
theorem execTimes_accepted (i : Instr) (hb : s.blk.busy = false) (n : Nat) : execTimes (1 + n) i s = execTimes n i (s.accepted i) := by
  rw [Nat.add_comm, execTimes_succ (exec_of_idle i hb)]
  rfl

theorem State.Cycles.device (h : t.Cycles) : t.params.device = .reference := h.ready.1

/-- Once the write cycle has ended, the operation that polls is served. -/
theorem State.Cycles.served (h : t.Cycles) (hrun : t.Runs i) : (commitStep t.selected t).Served i :=
  ⟨hrun.congr rfl rfl, h.legal, h.ready, fun b => by
    rw [bankAt_commitStep]
    split
    · next hb =>
      subst hb
      obtain ⟨hm, hc⟩ := h.quiet t.selected
      cases hbusy : (bankAt t.banks t.selected).busy with
      | true => rw [bankCommit_of_busy hbusy]; exact ⟨hm, by simp [bankOpenLatch]⟩
      | false => rw [bankCommit_of_not_busy hbusy]; exact ⟨hm, hc⟩
    · exact h.quiet b⟩

/-- A command accepted during the write cycle polls through it; a commit in the middle of the poll is one before it (R78, R81). -/
theorem State.Cycles.polls (h : t.Cycles) (hb : t.blk.busy = false) (hi : i.opcode ≠ 1 ∧ i.opcode ≠ 6 ∧ i.opcode ≠ 7)
    (hp : (t.accepted i).blk.ee.phase = .pollStart) (m : Nat) : ∃ u, execTimes (1 + m) i t = .next u ∧ u.blk.busy = true ∧
      commitStep t.selected u = (commitStep t.selected (t.accepted i)).polled i m ∧
      (commitStep t.selected (t.accepted i)).Served i := by
  obtain ⟨hrun, hsel, hv, hpar, _⟩ := accepted_spec hi t
  have hcyc : (t.accepted i).Cycles := h.congr hsel hv hpar
  have hs : (t.accepted i).selected = t.selected := congrArg controlBank hsel
  refine ⟨(t.accepted i).polled i m, ?_, hrun.busy, ?_, ?_⟩
  · rw [execTimes_accepted i hb, execTimes_polled hrun hp hcyc.device hcyc.quiet hcyc.nack]
  · rw [← hs, commitStep_polled]
  · rw [← hs]
    exact hcyc.served hrun

/-! ## Reading back -/

/-- An EERDB after the write reads through the write cycle (R81). -/
theorem State.Cycles.readByte (h : t.Cycles) (hb : t.blk.busy = false) (from' : Half) (m : Nat) :
    ∃ u w, execTimes (1 + m) (.eerdb from') t = .next u ∧ u.blk.busy = true ∧
      execTimes (t.openingSteps + 6 - m % 2) (.eerdb from') (commitStep t.selected u) = .next w ∧ w.blk.busy = false ∧
      w.blk.result =
        (eepromByte (commitStep t.selected t) t.selected (from'.toNat % t.params.eeCapacity)).zeroExtend 16 := by
  obtain ⟨u, hu, hbusy, hcommit, hserved⟩ := h.polls (i := .eerdb from') hb (by simp [Instr.opcode]) rfl m
  have hsteps : t.openingSteps + 6 - m % 2 = t.openingSteps - m % 2 + 6 := by
    have := two_le_openingSteps t
    omega
  have hrun := execTimes_eerdb hserved m rfl
  exact ⟨u, _, hu, hbusy, by rw [hcommit, hsteps]; exact hrun, rfl, rfl⟩

/-- An EERDBLK after the write reads through the write cycle (R81). -/
theorem State.Cycles.readBlock (h : t.Cycles) (hb : t.blk.busy = false) (from' : Half) (len : BitVec 7) (m : Nat) (hlen : len ≠ 0) :
    ∃ u w, execTimes (1 + m) (.eerdblk from' len) t = .next u ∧ u.blk.busy = true ∧
      execTimes (t.openingSteps + 5 + len.toNat - m % 2) (.eerdblk from' len) (commitStep t.selected u) = .next w ∧
      w.blk.busy = false ∧ w.blk.result = len.zeroExtend 16 ∧ ∀ j : Nat, j < len.toNat → memRead w.blk.buf j =
        some (eepromByte (commitStep t.selected t) t.selected ((from'.toNat + j) % 65536 % t.params.eeCapacity)) := by
  have hphase : (t.accepted (.eerdblk from' len)).blk.ee.phase = .pollStart := if_neg hlen
  obtain ⟨u, hu, hbusy, hcommit, hserved⟩ := h.polls (i := .eerdblk from' len) hb (by simp [Instr.opcode]) hphase m
  have hsteps : t.openingSteps + 5 + len.toNat - m % 2 = t.openingSteps - m % 2 + 5 + len.toNat := by
    have := two_le_openingSteps t
    omega
  have hrun := execTimes_eerdblk hserved m hlen rfl rfl
  refine ⟨u, _, hu, hbusy, by rw [hcommit, hsteps]; exact hrun, rfl, rfl, fun j hj => ?_⟩
  show memRead (memWriteAll _ (cellsFrom 0 (eepromBytes _ _ from' len.toNat))) j = _
  rw [memRead_memWriteAll_cellsFrom, if_pos ⟨Nat.zero_le _, by simpa [eepromBytes] using hj⟩]
  simp only [eepromBytes, Nat.sub_zero, List.getElem?_map, List.getElem?_range hj, Option.map_some]
  rfl

/-- EEWRB on a ready bank, from an idle block to its end: the bank has latched its byte and is in its write cycle (R152, R155). -/
theorem eewrb_written (addr : Half) (value : Byte) (hb : s.blk.busy = false) (hl : legalSelect s.blk.devsel) (hr : s.ready)
    (hq : s.busQuiet) : ∃ t, execTimes (s.openingSteps + 5) (.eewrb addr value) s = .next t ∧ t.blk.busy = false ∧ t.Cycles ∧
      t.blk.devsel = s.blk.devsel ∧ t.params = s.params ∧
      t.banks = setBank s.banks s.selected (s.writtenDev addr [value]) := by
  have hserved := accepted_served (i := .eewrb addr value) (by simp [Instr.opcode]) hl hr hq
  have hrun := execTimes_eewrb hserved 0
  have hsteps : 1 + ((s.accepted (.eewrb addr value)).openingSteps - 0 % 2 + 4) = s.openingSteps + 5 := Nat.add_comm ..
  rw [polled_zero rfl, ← execTimes_accepted _ hb, hsteps] at hrun
  refine ⟨_, hrun, rfl, ?_, rfl, rfl, rfl⟩
  exact hserved.cycles (List.cons_ne_nil _ _) rfl rfl rfl

/-- Settles O38: EEWRB ends with the bank in its write cycle, and a read polls through it. -/
theorem readAfterWrite : Obligations.ReadAfterWrite := by
  intro addr value s hb hl hr hq
  obtain ⟨t, ht, hidle, hcyc, hsel, hp, hv⟩ := eewrb_written addr value hb hl hr hq
  have hs : t.selected = s.selected := congrArg controlBank hsel
  have hsteps : t.openingSteps = s.openingSteps := openingSteps_congr hp
  have hbyte (x : Nat) : eepromByte (commitStep s.selected t) s.selected x =
      if x = addr.toNat % s.params.eeCapacity then value else eepromByte s s.selected x := by
    simp [eepromByte_written_byte hv]
  refine ⟨t, ht, hidle, fun m => ?_, fun from' len m hlen => ?_⟩
  · have hread := hcyc.readByte hidle addr m
    rwa [hs, hsteps, hp, hbyte, if_pos rfl] at hread
  · have hread := hcyc.readBlock hidle from' len m hlen
    simpa only [hs, hsteps, hp, hbyte] using hread

end

end Sys2Proof.Machine
end

section
/-! SUPPORT. EEWRBLK in one page write or in two, and reading back its block (41_eeprom_write.md R151, R153 to R155, 20_memory.md R81). -/

namespace Sys2Proof.Machine

/-! ## The chunk rule -/

theorem pageBoundary_eq (addr : Half) : pageBoundary addr = addr.toNat / 128 * 128 + 128 := by
  have hr : addr.toNat % 128 < 2 ^ 7 := Nat.mod_lt _ (by decide)
  have hlow : addr.toNat % 128 ||| 127 = 127 :=
    le_antisymm (Nat.le_of_lt_succ (Nat.or_lt_two_pow (n := 7) hr (by decide))) Nat.right_le_or
  have hsplit : addr.toNat = (addr.toNat / 128) <<< 7 + addr.toNat % 128 := by
    rw [Nat.shiftLeft_eq]
    omega
  have hor : addr.toNat ||| 127 = (addr.toNat / 128) <<< 7 + 127 := by
    conv_lhs => rw [hsplit, Nat.shiftLeft_add_eq_or_of_lt hr, Nat.or_assoc, hlow]
    rw [Nat.shiftLeft_add_eq_or_of_lt (by decide)]
  rw [pageBoundary, Config.eePage, hor, Nat.shiftLeft_eq]

/-- The chunk is what is left of the block or of the page, whichever is less (R151). -/
theorem pageChunk_eq (addr : Half) (len : BitVec 7) : pageChunk addr len = min len.toNat (128 - addr.toNat % 128) := by
  rw [pageChunk, pageBoundary_eq]
  omega

/-! ## A chunk -/

section
variable {i : Instr} {s t u : State} {a : Half} {l : BitVec 7} {ds es : List Byte}

/-- The next page write of the EEWRBLK in progress at `s` has been made, with the bytes `ds`, and `t` is the state after its stop condition
(R153). -/
structure State.PageWritten (i : Instr) (s : State) (ds : List Byte) (t : State) : Prop where
  length : ds.length = pageChunk s.blk.ee.addr s.blk.ee.len
  bytes : s.holdsFrom s.blk.ee.done.toNat ds
  devsel : t.blk.devsel = s.blk.devsel
  params : t.params = s.params
  buf : t.blk.buf = s.blk.buf
  banks : t.banks = setBank s.banks s.selected (s.writtenDev s.blk.ee.addr ds)
  last : s.blk.ee.len.toNat = ds.length → t.blk.busy = false
  more : s.blk.ee.len.toNat ≠ ds.length → t.Runs i ∧ t.blk.ee.phase = .pollStart ∧
    t.blk.ee.addr = s.blk.ee.addr + BitVec.ofNat 16 ds.length ∧ t.blk.ee.len.toNat = s.blk.ee.len.toNat - ds.length ∧
    t.blk.ee.done = s.blk.ee.done + BitVec.ofNat 7 ds.length

/-- A page write of EEWRBLK from wherever its poll stands through its stop condition (R153). -/
theorem exists_pageWritten (h : s.Served (.eewrblk a l)) (m : Nat) (hlen : s.blk.ee.len ≠ 0) :
    ∃ ds t, execTimes (s.openingSteps - m % 2 + 3 + pageChunk s.blk.ee.addr s.blk.ee.len) (.eewrblk a l)
      (s.polled (.eewrblk a l) m) = .next t ∧ s.PageWritten (.eewrblk a l) ds t := by
  obtain ⟨ds, E, hds, hbytes, hrun⟩ := execTimes_eewrblk_page h m hlen
  obtain ⟨hpos, hle⟩ := pageChunk_bounds (addr := s.blk.ee.addr) hlen
  have hlt := s.blk.ee.len.isLt
  have hleft : (s.blk.ee.len - BitVec.ofNat 7 (pageChunk s.blk.ee.addr s.blk.ee.len)).toNat = s.blk.ee.len.toNat - ds.length := by
    rw [hds, BitVec.toNat_sub, BitVec.toNat_ofNat]
    omega
  refine ⟨ds, _, hrun, ?_⟩
  by_cases hlast : s.blk.ee.len - BitVec.ofNat 7 (pageChunk s.blk.ee.addr s.blk.ee.len) = 0
  · rw [chunkDone_last (s := (s.setEnv E).onBus { s.blk.ee with chunk := 0, phase := .tStop } .released _ _) hlast]
    rw [hlast] at hleft
    have hz : (0 : BitVec 7).toNat = 0 := rfl
    exact ⟨hds, hbytes, rfl, rfl, rfl, rfl, fun _ => rfl, fun hne => absurd (by omega) hne⟩
  · rw [chunkDone_more (s := (s.setEnv E).onBus { s.blk.ee with chunk := 0, phase := .tStop } .released _ _) hlast]
    refine ⟨hds, hbytes, rfl, rfl, rfl, rfl, fun he => absurd (BitVec.eq_of_toNat_eq (by rw [hleft, he]; simp)) hlast, fun _ => ?_⟩
    exact ⟨h.runs.congr rfl rfl, rfl, by rw [hds]; rfl, hleft, by rw [hds]; rfl⟩

theorem State.PageWritten.selected (h : s.PageWritten i ds t) : t.selected = s.selected := congrArg controlBank h.devsel

theorem State.PageWritten.cycles (h : s.PageWritten i ds t) (hs : s.Served i) (hds : ds ≠ []) : t.Cycles :=
  hs.cycles hds h.devsel h.params h.banks

/-- After the commit the bytes stand where the chunk put them (R155). -/
theorem State.PageWritten.eepromByte (h : s.PageWritten i ds t) (hds : ds ≠ []) (hcap : s.params.eeCapacity = 65536) (b : Bank) (x : Nat) :
    eepromByte (commitStep s.selected t) b x =
      if b = s.selected ∧ s.blk.ee.addr.toNat ≤ x ∧ x < s.blk.ee.addr.toNat + ds.length then ds.getD (x - s.blk.ee.addr.toNat) 0
      else eepromByte s b x := by
  refine eepromByte_written_page hds ?_ hcap h.banks b x
  rw [h.length, pageChunk_eq]
  omega

theorem holdsFrom_append {k : Nat} (h : s.holdsFrom k ds) (h' : s.holdsFrom (k + ds.length) es) : s.holdsFrom k (ds ++ es) := by
  intro j v hj hv
  rw [List.length_append] at hj
  by_cases hlt : j < ds.length
  · rw [List.getElem?_append_left hlt]
    exact h j v hlt hv
  · rw [List.getElem?_append_right (by omega)]
    exact h' (j - ds.length) v (by omega) (by rwa [show k + ds.length + (j - ds.length) = k + j by omega])

/-! ## The block -/

/-- EEWRBLK of `ds` at `addr` has completed between `s` and `t`, with the selected bank in the last write cycle: once it ends the bytes stand at
`addr` on, modulo 2^16, and every other byte is as before (R153 to R155). -/
structure State.BlockWritten (s : State) (addr : Half) (ds : List Byte) (t : State) : Prop where
  idle : t.blk.busy = false
  bytes : s.holdsFrom 0 ds
  cycles : t.Cycles
  devsel : t.blk.devsel = s.blk.devsel
  params : t.params = s.params
  stored : ∀ (b : Bank) (x : Nat), eepromByte (commitStep s.selected t) b x =
    if b = s.selected ∧ x < 65536 ∧ (x + 65536 - addr.toNat) % 65536 < ds.length
    then ds.getD ((x + 65536 - addr.toNat) % 65536) 0 else eepromByte s b x

/-- Where an address lies in a block that does not run past the end of the address space. -/
theorem offset_of_fits {a n x : Nat} (h : a + n ≤ 65536) (hn : 0 < n) : (x < 65536 ∧ (x + 65536 - a) % 65536 < n ↔ a ≤ x ∧ x < a + n) ∧
    (a ≤ x ∧ x < a + n → (x + 65536 - a) % 65536 = x - a) := by
  omega

/-- Where an address lies in a block whose first part ends before 65536 and whose second part follows it, modulo 2^16. -/
theorem offset_of_parts {a n m x : Nat} (h : a + n ≤ 65536) (hn : 0 < n) (h' : (a + n) % 65536 + m ≤ 65536) (hm : n + m < 65536) :
    (x < 65536 ∧ (x + 65536 - a) % 65536 < n + m ↔
      ((a + n) % 65536 ≤ x ∧ x < (a + n) % 65536 + m) ∨ (a ≤ x ∧ x < a + n)) ∧
    ((a + n) % 65536 ≤ x ∧ x < (a + n) % 65536 + m → (x + 65536 - a) % 65536 = n + (x - (a + n) % 65536)) ∧
    (a ≤ x ∧ x < a + n → (x + 65536 - a) % 65536 = x - a ∧ ¬((a + n) % 65536 ≤ x ∧ x < (a + n) % 65536 + m)) := by
  omega

/-- EEWRBLK with bytes to write, from an idle block through its first page write (R153). -/
theorem eewrblk_firstPage (addr : Half) {len : BitVec 7} (hb : s.blk.busy = false)
    (hs : (s.accepted (.eewrblk addr len)).Served (.eewrblk addr len)) (hlen : len ≠ 0) :
    ∃ ds t, execTimes (s.openingSteps + 4 + pageChunk addr len) (.eewrblk addr len) s = .next t ∧
      (s.accepted (.eewrblk addr len)).PageWritten (.eewrblk addr len) ds t := by
  have hphase : (s.accepted (.eewrblk addr len)).blk.ee.phase = .pollStart := if_neg hlen
  obtain ⟨ds, t, hrun, hpage⟩ := exists_pageWritten hs 0 hlen
  have hsteps : 1 + ((s.accepted (.eewrblk addr len)).openingSteps - 0 % 2 + 3 + pageChunk addr len) =
      s.openingSteps + 4 + pageChunk addr len := by
    show 1 + (s.openingSteps + 3 + pageChunk addr len) = _
    omega
  rw [polled_zero hphase, ← execTimes_accepted _ hb] at hrun
  exact ⟨ds, t, hsteps ▸ hrun, hpage⟩

/-- EEWRBLK inside its page, from an idle block to its end (R153, R155). -/
theorem eewrblk_onePage (addr : Half) {len : BitVec 7} (hb : s.blk.busy = false)
    (hs : (s.accepted (.eewrblk addr len)).Served (.eewrblk addr len)) (hlen : len ≠ 0)
    (hfit : addr.toNat % 128 + len.toNat ≤ 128) (hcap : s.params.eeCapacity = 65536) :
    ∃ ds t, execTimes (s.openingSteps + 4 + pageChunk addr len) (.eewrblk addr len) s = .next t ∧ ds.length = len.toNat ∧
      s.BlockWritten addr ds t := by
  obtain ⟨ds, t, hrun, hpage⟩ := eewrblk_firstPage addr hb hs hlen
  obtain ⟨hpos, hle⟩ := pageChunk_bounds (addr := addr) hlen
  have hchunk : pageChunk addr len = len.toNat := by
    rw [pageChunk_eq]
    omega
  have hdslen : ds.length = len.toNat := hpage.length.trans hchunk
  have hne : ds ≠ [] := List.ne_nil_of_length_pos (by omega)
  refine ⟨ds, t, hrun, hdslen, hpage.last hdslen.symm, hpage.bytes, hpage.cycles hs hne, hpage.devsel, hpage.params, fun b x => ?_⟩
  have haddr := addr.isLt
  obtain ⟨hiff, hoff⟩ := offset_of_fits (a := addr.toNat) (n := ds.length) (x := x) (by omega) (by omega)
  refine (hpage.eepromByte hne hcap b x).trans ?_
  show (if b = s.selected ∧ addr.toNat ≤ x ∧ x < addr.toNat + ds.length then ds.getD (x - addr.toNat) 0 else eepromByte s b x) = _
  by_cases hx : b = s.selected ∧ addr.toNat ≤ x ∧ x < addr.toNat + ds.length
  · rw [if_pos hx, if_pos ⟨hx.1, hiff.2 hx.2⟩, hoff hx.2]
  · rw [if_neg hx, if_neg fun h => hx ⟨h.1, hiff.1 h.2⟩]

/-- After a page write with bytes left, the poll of the next one lasts through the write cycle, and then the next page is written (R153). -/
theorem State.PageWritten.nextPage (h : s.PageWritten (.eewrblk a l) ds u) (hs : s.Served (.eewrblk a l)) (hds : ds ≠ [])
    (hmore : ds.length < s.blk.ee.len.toNat) (p : Nat) :
    ∃ v es t, execTimes p (.eewrblk a l) u = .next v ∧
      execTimes (s.openingSteps - p % 2 + 3 + pageChunk u.blk.ee.addr u.blk.ee.len) (.eewrblk a l) (commitStep s.selected v) = .next t ∧
      (commitStep s.selected u).Served (.eewrblk a l) ∧ (commitStep s.selected u).PageWritten (.eewrblk a l) es t := by
  have hcyc := h.cycles hs hds
  obtain ⟨hruns, hpoll, _, hleft, _⟩ := h.more (by omega)
  have hserved := hcyc.served hruns
  have hlen : u.blk.ee.len ≠ 0 := fun h0 => by
    have hz : u.blk.ee.len.toNat = 0 := by rw [h0]; rfl
    omega
  obtain ⟨es, t, hrun, hpage⟩ := exists_pageWritten hserved p hlen
  rw [← commitStep_polled] at hrun
  rw [h.selected] at hrun hserved hpage
  refine ⟨_, es, t, execTimes_polled hruns hpoll hcyc.device hcyc.quiet hcyc.nack p, ?_, hserved, hpage⟩
  rw [← openingSteps_congr h.params]
  exact hrun

/-- Two page writes, the first to the end of its page, write the whole block (R153 to R155). -/
theorem State.PageWritten.blockWritten (h : s.PageWritten i ds u) (hds : ds ≠ []) (hes : es ≠ [])
    (h' : (commitStep s.selected u).PageWritten i es t) (hs' : (commitStep s.selected u).Served i)
    (hdone : s.blk.ee.done = 0) (hpage : s.blk.ee.addr.toNat % 128 + ds.length = 128)
    (hlen : s.blk.ee.len.toNat = ds.length + es.length) (hcap : s.params.eeCapacity = 65536) :
    s.BlockWritten s.blk.ee.addr (ds ++ es) t := by
  have haddr := s.blk.ee.addr.isLt
  have hltlen := s.blk.ee.len.isLt
  have hlds := List.length_pos_of_ne_nil hds
  have hles := List.length_pos_of_ne_nil hes
  obtain ⟨_, _, huaddr, hulen, hudone⟩ := h.more (by omega)
  have hsel : (commitStep s.selected u).selected = s.selected := h.selected
  have haddr' : u.blk.ee.addr.toNat = (s.blk.ee.addr.toNat + ds.length) % 65536 := by
    rw [huaddr, BitVec.toNat_add, BitVec.toNat_ofNat]
    omega
  have hdone' : u.blk.ee.done.toNat = ds.length := by
    rw [hudone, hdone, zero_add, BitVec.toNat_ofNat]
    omega
  have hbytes : s.holdsFrom 0 ds := fun j v hj hv => h.bytes j v hj (by rwa [hdone])
  have hbytes' : s.holdsFrom (0 + ds.length) es := fun j v hj hv => h'.bytes j v hj (by
    show memRead u.blk.buf (u.blk.ee.done.toNat + j) = some v
    rwa [hdone', h.buf, ← Nat.zero_add ds.length])
  refine ⟨h'.last (by show u.blk.ee.len.toNat = es.length; omega), holdsFrom_append hbytes hbytes', h'.cycles hs' hes,
    h'.devsel.trans h.devsel, h'.params.trans h.params, fun b x => ?_⟩
  have hstored' := h'.eepromByte hes ((congrArg Params.eeCapacity h.params).trans hcap) b x
  rw [hsel, h.eepromByte hds hcap b x] at hstored'
  obtain ⟨hiff, hoff', hoff⟩ := offset_of_parts (a := s.blk.ee.addr.toNat) (n := ds.length) (m := es.length) (x := x) (by omega) hlds
    (by omega) (by omega)
  rw [hstored', List.length_append]
  show (if b = s.selected ∧ u.blk.ee.addr.toNat ≤ x ∧ x < u.blk.ee.addr.toNat + es.length
    then es.getD (x - u.blk.ee.addr.toNat) 0 else _) = _
  rw [haddr']
  by_cases hb : b = s.selected
  · by_cases hx' : (s.blk.ee.addr.toNat + ds.length) % 65536 ≤ x ∧ x < (s.blk.ee.addr.toNat + ds.length) % 65536 + es.length
    · rw [if_pos ⟨hb, hx'⟩, if_pos ⟨hb, hiff.2 (.inl hx')⟩, hoff' hx', List.getD_append_right _ _ _ _ (by omega),
        Nat.add_sub_cancel_left]
    · rw [if_neg fun hc => hx' hc.2]
      by_cases hx : s.blk.ee.addr.toNat ≤ x ∧ x < s.blk.ee.addr.toNat + ds.length
      · rw [if_pos ⟨hb, hx⟩, if_pos ⟨hb, hiff.2 (.inr hx)⟩, (hoff hx).1, List.getD_append _ _ _ _ (by omega)]
      · rw [if_neg fun hc => hx hc.2, if_neg fun hc => (hiff.1 hc.2).elim hx' hx]
  · rw [if_neg fun hc => hb hc.1, if_neg fun hc => hb hc.1, if_neg fun hc => hb hc.1]

/-- EEWRBLK across a page boundary, from an idle block to its end, with `p` primitives of the second page's poll before the first commit (R153 to
R155). -/
theorem eewrblk_twoPages (addr : Half) {len : BitVec 7} (p : Nat) (hb : s.blk.busy = false)
    (hs : (s.accepted (.eewrblk addr len)).Served (.eewrblk addr len)) (hlen : len ≠ 0)
    (hlong : 128 < addr.toNat % 128 + len.toNat) (hcap : s.params.eeCapacity = 65536) :
    ∃ v ds t, execTimes (s.openingSteps + 4 + pageChunk addr len + p) (.eewrblk addr len) s = .next v ∧
      execTimes (s.openingSteps + 3 + (len.toNat - pageChunk addr len) - p % 2) (.eewrblk addr len) (commitStep s.selected v) = .next t ∧
      ds.length = len.toNat ∧ s.BlockWritten addr ds t := by
  obtain ⟨ds, u, hrun, hfirst⟩ := eewrblk_firstPage addr hb hs hlen
  have hltlen := len.isLt
  have hchunk : pageChunk addr len = 128 - addr.toNat % 128 := by
    rw [pageChunk_eq]
    omega
  have hdslen : ds.length = 128 - addr.toNat % 128 := hfirst.length.trans hchunk
  have hds : ds ≠ [] := List.ne_nil_of_length_pos (by omega)
  have hmore : ds.length < len.toNat := by omega
  obtain ⟨v, es, t, hv, hrun', hs', hsecond⟩ := hfirst.nextPage hs hds hmore p
  obtain ⟨_, _, huaddr, hulen, _⟩ := hfirst.more (show len.toNat ≠ ds.length by omega)
  have huaddr' : u.blk.ee.addr.toNat % 128 = 0 := by
    rw [huaddr, BitVec.toNat_add, BitVec.toNat_ofNat]
    show (addr.toNat + _) % _ % _ = 0
    omega
  have hchunk' : pageChunk u.blk.ee.addr u.blk.ee.len = len.toNat - pageChunk addr len := by
    have hulen' : u.blk.ee.len.toNat = len.toNat - ds.length := hulen
    rw [pageChunk_eq, huaddr', hulen']
    omega
  have heslen : es.length = len.toNat - ds.length := hsecond.length.trans (by
    show pageChunk u.blk.ee.addr u.blk.ee.len = _
    omega)
  have hsteps : s.openingSteps + 3 + (len.toNat - pageChunk addr len) - p % 2 =
      s.openingSteps - p % 2 + 3 + pageChunk u.blk.ee.addr u.blk.ee.len := by
    have := two_le_openingSteps s
    omega
  have hblock := hfirst.blockWritten hds (List.ne_nil_of_length_pos (by omega)) hsecond hs' rfl (by show addr.toNat % 128 + _ = _; omega)
    (by show len.toNat = _; omega) hcap
  refine ⟨v, ds ++ es, t, (execTimes_add hrun p).trans hv, hsteps ▸ hrun', by rw [List.length_append]; omega, ?_⟩
  obtain ⟨hidle, hbytes, hcyc, hsel, hpar, hstored⟩ := hblock
  exact ⟨hidle, hbytes, hcyc, hsel, hpar, hstored⟩

/-- EEWRBLK on a ready bank, in one page write or in two (R153 to R155). -/
theorem eewrblkRun_written (addr : Half) {len : BitVec 7} (p : Nat) (hb : s.blk.busy = false) (hl : legalSelect s.blk.devsel)
    (hr : s.ready) (hq : s.busQuiet) (hlen : len ≠ 0) (hcap : s.params.eeCapacity = 65536) :
    ∃ ds t, eewrblkRun addr len p s = .next t ∧ ds.length = len.toNat ∧ s.BlockWritten addr ds t := by
  have hs := accepted_served (i := .eewrblk addr len) (by simp [Instr.opcode]) hl hr hq
  have hchunk := pageChunk_eq addr len
  by_cases hfit : addr.toNat % 128 + len.toNat ≤ 128
  · obtain ⟨ds, t, hrun, h⟩ := eewrblk_onePage addr hb hs hlen hfit hcap
    exact ⟨ds, t, by rw [eewrblkRun, if_pos (by omega)]; exact hrun, h⟩
  · obtain ⟨v, ds, t, hv, hrun, h⟩ := eewrblk_twoPages addr p hb hs hlen (by omega) hcap
    exact ⟨ds, t, by rw [eewrblkRun, if_neg (by omega), hv]; exact hrun, h⟩

/-- Settles O59: EEWRBLK ends with the bank in its last write cycle, and a read polls through it. -/
theorem readAfterBlockWrite : Obligations.ReadAfterBlockWrite := by
  intro addr len p s hb hl hr hq hlen hcap
  obtain ⟨ds, t, ht, hdslen, hidle, hbytes, hcyc, hsel, hp, hstored⟩ := eewrblkRun_written addr p hb hl hr hq hlen hcap
  refine ⟨t, ds, ht, hidle, hdslen, fun j v hj hv => hbytes j v (by omega) (by rwa [Nat.zero_add]), ?_⟩
  intro expected
  have hs : t.selected = s.selected := congrArg controlBank hsel
  have hsteps : t.openingSteps = s.openingSteps := openingSteps_congr hp
  have hbyte {x : Nat} (hx : x < 65536) : eepromByte (commitStep s.selected t) s.selected x = expected x := by
    simp [hstored, hx, hdslen, expected]
  refine ⟨fun from' m => ?_, fun from' len' m hlen' => ?_⟩
  · have hread := hcyc.readByte hidle from' m
    rwa [hs, hsteps, hp, hcap, Nat.mod_eq_of_lt from'.isLt, hbyte from'.isLt] at hread
  · have hread := hcyc.readBlock hidle from' len' m hlen'
    have hlt (j : Nat) : (from'.toNat + j) % 65536 < 65536 := Nat.mod_lt _ (by decide)
    simpa only [hs, hsteps, hp, hcap, Nat.mod_mod, hbyte (hlt _)] using hread

end

end Sys2Proof.Machine
end

section
/-! SUPPORT. The command word (30_encoding.md part 1): a row of R107 fixes the opcode and the must-be-zero field of its words, a word is its fields
each at its place, and the statements about the decoder they settle. -/

namespace Sys2Proof

open Machine (toNat_append_eq_add)

/-! ## Fields of a word -/

/-- A field read as a number (R110). -/
theorem field_toNat (w : Word) (lo n : Nat) : (w.extractLsb' lo n).toNat = w.toNat / 2 ^ lo % 2 ^ n := by
  rw [BitVec.extractLsb'_toNat, Nat.shiftRight_eq_div_pow]

/-- The field in the middle of a join. -/
theorem middleField_append {m n k : Nat} (x : BitVec m) (y : BitVec n) (z : BitVec k) : (x ++ y ++ z).extractLsb' k n = y := by
  rw [BitVec.extractLsb'_append_eq_of_le le_rfl, Nat.sub_self, BitVec.extractLsb'_append_eq_right]

/-- Where the mask of a row is all ones, a word of the row holds the pattern's bits. -/
theorem field_of_isRowOf {r : OpRow} {w : Word} (h : r.isRowOf w = true) {lo n : Nat} (hm : r.mask.extractLsb' lo n = BitVec.allOnes n) :
    w.extractLsb' lo n = r.pattern.extractLsb' lo n := by
  rw [← eq_of_beq h, BitVec.extractLsb'_and, hm, BitVec.and_allOnes]

/-! ## Rows -/

theorem row_mem (i : Instr) : i.row ∈ opcodeTable := by cases i <;> simp [Instr.row, opcodeTable]

theorem row_isRowOf_encode : (i : Instr) → i.row.isRowOf (encode i) = true
  | .eesel bank => (Laws.RowMatch.eesel bank).1
  | .eerdb addr => (Laws.RowMatch.eerdb addr).1
  | .eerdblk addr len => (Laws.RowMatch.eerdblk addr len).1
  | .eewrb addr value => (Laws.RowMatch.eewrb addr value).1
  | .eewrblk addr len => (Laws.RowMatch.eewrblk addr len).1
  | .irtx command address => (Laws.RowMatch.irtx command address).1
  | .irrx => Laws.RowMatch.irrx.1

/-- Every row of the table is some command's. -/
theorem exists_row_eq {r : OpRow} (h : r ∈ opcodeTable) : ∃ i : Instr, i.row = r := by
  simp only [opcodeTable, List.mem_cons, List.not_mem_nil, or_false] at h
  rcases h with rfl | rfl | rfl | rfl | rfl | rfl | rfl
  exacts [⟨.eesel 0, rfl⟩, ⟨.eerdb 0, rfl⟩, ⟨.eerdblk 0 0, rfl⟩, ⟨.eewrb 0 0, rfl⟩, ⟨.eewrblk 0 0, rfl⟩, ⟨.irtx 0 0, rfl⟩, ⟨.irrx, rfl⟩]

/-! ## Decoding a word of a row -/

/-- The command of `i`'s format whose operands are the fields of `w` (R101 to R106, R110). -/
def Instr.reread (w : Word) : Instr → Instr
  | .eesel _ => .eesel (w.extractLsb' 0 8)
  | .eerdb _ => .eerdb (w.extractLsb' 0 16)
  | .eerdblk _ _ => .eerdblk (w.extractLsb' 0 16) (w.extractLsb' 16 7)
  | .eewrb _ _ => .eewrb (w.extractLsb' 0 16) (w.extractLsb' 16 8)
  | .eewrblk _ _ => .eewrblk (w.extractLsb' 0 16) (w.extractLsb' 16 7)
  | .irtx _ _ => .irtx (w.extractLsb' 0 7) (w.extractLsb' 7 5)
  | .irrx => .irrx

@[simp] theorem row_reread (w : Word) (i : Instr) : (i.reread w).row = i.row := by cases i <;> rfl

/-- The operands of a command stand in its word at their fields. -/
theorem reread_encode : (i : Instr) → i.reread (encode i) = i
  | .eesel _ => congrArg Instr.eesel BitVec.extractLsb'_append_eq_right
  | .eerdb _ => congrArg Instr.eerdb BitVec.extractLsb'_append_eq_right
  | .eerdblk _ _ => congrArg₂ Instr.eerdblk BitVec.extractLsb'_append_eq_right (middleField_append ..)
  | .eewrb _ _ => congrArg₂ Instr.eewrb BitVec.extractLsb'_append_eq_right (middleField_append ..)
  | .eewrblk _ _ => congrArg₂ Instr.eewrblk BitVec.extractLsb'_append_eq_right (middleField_append ..)
  | .irtx _ _ => congrArg₂ Instr.irtx BitVec.extractLsb'_append_eq_right (middleField_append ..)
  | .irrx => rfl

/-- Where the must-be-zero field of a command's format begins; it ends at bit 27 (R100 to R106). -/
def Instr.zeroLow : Instr → Nat
  | .eesel _ => 8
  | .eerdb _ => 16
  | .eerdblk _ _ => 23
  | .eewrb _ _ => 24
  | .eewrblk _ _ => 23
  | .irtx _ _ => 12
  | .irrx => 0

theorem fields_of_closedRow {r : OpRow} {w : Word} (h : r.isRowOf w = true) (op : BitVec 4) (lo n : Nat)
    (hmask : r.mask.extractLsb' 28 4 = BitVec.allOnes 4 ∧ r.mask.extractLsb' lo n = BitVec.allOnes n)
    (hpattern : r.pattern.extractLsb' 28 4 = op ∧ r.pattern.extractLsb' lo n = 0) : w.extractLsb' 28 4 = op ∧ w.extractLsb' lo n = 0 :=
  ⟨(field_of_isRowOf h hmask.1).trans hpattern.1, (field_of_isRowOf h hmask.2).trans hpattern.2⟩

/-- A row fixes the opcode and the must-be-zero field (R107). The row is written with operands 0, so that pattern and mask are closed. -/
theorem fields_of_isRowOf {i : Instr} {w : Word} (h : i.row.isRowOf w = true) :
    w.extractLsb' 28 4 = i.opcode.zeroExtend 4 ∧ w.extractLsb' i.zeroLow (28 - i.zeroLow) = 0 := by
  cases i with
  | eesel => exact fields_of_closedRow (r := (Instr.eesel 0).row) h 1 8 20 (by decide) (by decide)
  | eerdb => exact fields_of_closedRow (r := (Instr.eerdb 0).row) h 2 16 12 (by decide) (by decide)
  | eerdblk => exact fields_of_closedRow (r := (Instr.eerdblk 0 0).row) h 3 23 5 (by decide) (by decide)
  | eewrb => exact fields_of_closedRow (r := (Instr.eewrb 0 0).row) h 4 24 4 (by decide) (by decide)
  | eewrblk => exact fields_of_closedRow (r := (Instr.eewrblk 0 0).row) h 5 23 5 (by decide) (by decide)
  | irtx => exact fields_of_closedRow (r := (Instr.irtx 0 0).row) h 6 12 16 (by decide) (by decide)
  | irrx => exact fields_of_closedRow h 7 0 28 (by decide) (by decide)

/-- A word of a command's row decodes to a command of that format: the row fixes its opcode and its must-be-zero field. -/
theorem decode_of_isRowOf {i : Instr} {w : Word} (h : i.row.isRowOf w = true) : decode w = .ok (i.reread w) := by
  obtain ⟨hop, hz⟩ := fields_of_isRowOf h
  cases i <;> simp only [decode, hop] <;> exact if_pos hz

/-- Settles O1: the word stands in the command's row, and its fields are the operands. -/
theorem decodeOfEncode : Obligations.DecodeOfEncode := fun i _ => by
  rw [decode_of_isRowOf (row_isRowOf_encode i), reread_encode]

/-! ## What the decoder answers -/

/-- Bits 31:28 as a number: the highest field of the word (R107). -/
theorem opcode_toNat {i : Instr} {w : Word} (h : w.extractLsb' 28 4 = i.opcode.zeroExtend 4) : w.toNat / 2 ^ 28 = i.opcode.toNat := by
  have hop := congrArg BitVec.toNat h
  rw [field_toNat, BitVec.zeroExtend, BitVec.toNat_setWidth] at hop
  have hw := w.isLt
  have hi := i.opcode.isLt
  omega

/-- A word is its opcode, its must-be-zero field and its operands, each at its place. -/
theorem encode_reread {i : Instr} {w : Word} (hop : w.extractLsb' 28 4 = i.opcode.zeroExtend 4)
    (hz : w.extractLsb' i.zeroLow (28 - i.zeroLow) = 0) : encode (i.reread w) = w := by
  have hop' := opcode_toNat hop
  have hz' := congrArg BitVec.toNat hz
  refine BitVec.eq_of_toNat_eq ?_
  rw [field_toNat] at hz'
  cases i <;>
    simp only [Instr.opcode, Instr.zeroLow, encode, Instr.reread, toNat_append_eq_add, field_toNat, BitVec.ofNat_eq_ofNat,
      BitVec.toNat_ofNat] at hop' hz' ⊢ <;>
    omega

/-- The answers to a word: the command whose word it is, or one of the two names of R108. -/
def Answers (w : Word) (r : Except DecodeError Instr) : Prop :=
  (∃ i, r = .ok i ∧ encode i = w) ∨ r = .error (.noSuchOpcode (w.extractLsb' 28 4)) ∨ r = .error (.mustBeZero (w.extractLsb' 28 4))

theorem ifZero_answers {i : Instr} {w : Word} (hop : w.extractLsb' 28 4 = i.opcode.zeroExtend 4) :
    Answers w (ifZero (w.extractLsb' 28 4) (w.extractLsb' i.zeroLow (28 - i.zeroLow)) (i.reread w)) := by
  by_cases hz : w.extractLsb' i.zeroLow (28 - i.zeroLow) = 0
  · exact .inl ⟨i.reread w, if_pos hz, encode_reread hop hz⟩
  · exact .inr (.inr (if_neg hz))

theorem decode_answers (w : Word) : Answers w (decode w) := by
  unfold decode
  extract_lets op
  split_ifs with h1 h2 h3 h4 h5 h6 h7
  · exact ifZero_answers (i := .eesel 0) h1
  · exact ifZero_answers (i := .eerdb 0) h2
  · exact ifZero_answers (i := .eerdblk 0 0) h3
  · exact ifZero_answers (i := .eewrb 0 0) h4
  · exact ifZero_answers (i := .eewrblk 0 0) h5
  · exact ifZero_answers (i := .irtx 0 0) h6
  · exact ifZero_answers (i := .irrx) h7
  · exact .inr (.inl rfl)

theorem encode_of_decode {w : Word} {i : Instr} (h : decode w = .ok i) : encode i = w := by
  rcases decode_answers w with ⟨j, hj, hw⟩ | he | he
  · rwa [← Except.ok.inj (hj.symm.trans h)]
  · exact absurd (he.symm.trans h) nofun
  · exact absurd (he.symm.trans h) nofun

theorem row_isRowOf_of_decode {w : Word} {i : Instr} (h : decode w = .ok i) : i.row.isRowOf w = true :=
  encode_of_decode h ▸ row_isRowOf_encode i

/-- Settles O2: an answer is the command whose word it is, and that word stands in the command's row. -/
theorem decodeIsExact : Obligations.DecodeIsExact := fun _ i h =>
  ⟨encode_of_decode h, row_mem i, row_isRowOf_of_decode h⟩

/-- A word of a row decodes to a command of that row. -/
theorem exists_decode_of_row {w : Word} {r : OpRow} (hr : r ∈ opcodeTable) (hw : r.isRowOf w = true) : ∃ i, decode w = .ok i ∧ i.row = r := by
  obtain ⟨i, rfl⟩ := exists_row_eq hr
  exact ⟨i.reread w, decode_of_isRowOf hw, row_reread w i⟩

/-- Settles O3: a word of two rows would decode to two commands. -/
theorem legalWordsAreTheRows : Obligations.LegalWordsAreTheRows := by
  refine ⟨fun w => ⟨fun ⟨i, hi⟩ => ⟨i.row, row_mem i, row_isRowOf_of_decode hi⟩, fun ⟨r, hr, hw⟩ => ?_⟩, ?_, ?_⟩
  · obtain ⟨i, hi, _⟩ := exists_decode_of_row hr hw
    exact ⟨i, hi⟩
  · intro w r q hr hq hwr hwq
    obtain ⟨i, hi, rfl⟩ := exists_decode_of_row hr hwr
    obtain ⟨j, hj, rfl⟩ := exists_decode_of_row hq hwq
    rw [Except.ok.inj (hi.symm.trans hj)]
  · intro w hnone
    refine (decode_answers w).resolve_left fun ⟨i, hi, _⟩ => ?_
    exact absurd (row_isRowOf_of_decode hi) (by simp [hnone i.row (row_mem i)])

/-- Settles O5: the operands of a decoded command are the fields of the word. -/
theorem operandFields : Obligations.OperandFields := by
  intro w i h
  have hrow := row_isRowOf_of_decode h
  have hfields : i.reread w = i := Except.ok.inj ((decode_of_isRowOf hrow).symm.trans h)
  refine ⟨opcode_toNat (fields_of_isRowOf hrow).1, ?_⟩
  rw [← hfields]
  cases i <;> simp only [Instr.reread, field_toNat, pow_zero, Nat.div_one, and_self]

/-- Settles O4: the words of R120, evaluated. -/
theorem workedEncodings : Obligations.WorkedEncodings := by
  unfold Obligations.WorkedEncodings
  decide

end Sys2Proof
end

section
/-! SUPPORT. The command word in the machine: the frame word (30_encoding.md R113), the step that takes a word written to CMD (R100, R266), and the
assembler (R118, R119). -/

namespace Sys2Proof.Machine

/-! ## The frame word -/

/-- Settles O45: the frame word is a join of two fields. -/
theorem frameWordBits : Obligations.FrameWordBits := by
  intro command address w
  refine ⟨toNat_append_eq_add .., fun k hk => ?_, fun k _ => ?_, BitVec.extractLsb'_append_eq_right, ?_⟩
  · exact BitVec.getLsbD_append.trans (if_pos hk)
  · exact BitVec.getLsbD_append.trans (by rw [if_neg (by omega), Nat.add_sub_cancel_left])
  · exact BitVec.extractLsb'_append_eq_left

/-! ## A command word at CMD -/

/-- The host's step where the next access writes CMD of an idle block with a legal word (R100, R266). -/
theorem hostStep_cmdWrite {w : Word} {i : Instr} {rest : List HostAct} {s : State} (hp : s.env.prog = .write 0 w :: rest)
    (hb : s.blk.busy = false) (hd : decode w = .ok i) : hostStep s = exec i { s with env.prog := rest } := by
  simp [hostStep, hp, hostWrite, cmdWrite, State.setEnv, hb, hd]

/-- Settles O6: the turn is the host's, and its access is the write of CMD. -/
theorem stepRunsTheCommandWord : Obligations.StepRunsTheCommandWord := by
  intro w i btn rest later s ha hp hb hd
  have hhost := hostStep_cmdWrite (s := { s with env.agenda := later }) hp hb hd
  rw [step_of_agenda ha]
  exact congrArg (thenNext · _) hhost

@[simp] theorem commandWord_toNat (w : Word) : commandWord 32 w.toNat = w := by
  rw [commandWord, Nat.mod_eq_of_lt w.isLt, BitVec.ofNat_toNat, BitVec.setWidth_eq]

/-- A word is placed over an idle block: the state itself, or the one with no operation in progress (log 3). -/
theorem quiet_if_busy_idle (s : State) : (if s.blk.busy then s.quiet else s).blk.busy = false := by
  split
  · rfl
  · next hb => exact Bool.eq_false_iff.2 hb

/-- Settles O8: the placed word is the next access of the host, whose turn it is. -/
theorem placedWordRuns : Obligations.PlacedWordRuns := by
  intro w i s hd
  have hplaced := stepRunsTheCommandWord w i false (if s.blk.busy then s.quiet else s).env.prog
    (if s.blk.busy then s.quiet else s).env.agenda (s.withFetchWord 32 w.toNat) rfl
    (by rw [State.withFetchWord, commandWord_toNat]; rfl) (quiet_if_busy_idle s) hd
  rwa [thenNext_congr (withButton_of_no_event .host), thenNext_id] at hplaced

/-! ## The assembler -/

/-- A statement in range is what it stands for; one out of range is an error (R118). -/
theorem assemble_eq {st : Stmt} {p : Prop} [Decidable p] (h : st.wellFormed = true ↔ p) :
    assemble st = if p then some (expand st) else none := by
  simp only [assemble, h]

theorem assembleAll_of_wellFormed {l : List Stmt} (h : ∀ st ∈ l, st.wellFormed = true) : assembleAll l = some (l.flatMap expand) := by
  induction l with
  | nil => rfl
  | cons st rest ih =>
    have hst : assemble st = some (expand st) := if_pos (h st List.mem_cons_self)
    rw [assembleAll, hst, ih fun q hq => h q (List.mem_cons_of_mem _ hq)]
    rfl

/-- The range check of a form with two operands (R118). -/
theorem and_decide_iff {p q : Prop} [Decidable p] [Decidable q] : (decide p && decide q) = true ↔ p ∧ q := by simp

/-- A pseudo-instruction assembles to the statements it expands into (R119). -/
theorem assemble_eq_assembleAll {st : Stmt} {p : Prop} [Decidable p] {l : List Stmt} (h : st.wellFormed = true ↔ p)
    (hl : p → ∀ q ∈ l, q.wellFormed = true) (he : expand st = l.flatMap expand) :
    assemble st = if p then assembleAll l else none := by
  rw [assemble_eq h, he]
  split
  · next hp => rw [assembleAll_of_wellFormed (hl hp)]
  · rfl

/-- Settles O57: the range of each form, and the expansions of R119. -/
theorem assemblerRanges : Obligations.AssemblerRanges := by
  refine ⟨fun _ => assemble_eq decide_eq_true_iff, fun _ => assemble_eq decide_eq_true_iff, fun _ _ => assemble_eq and_decide_iff,
    fun _ _ => assemble_eq and_decide_iff, fun _ _ => assemble_eq and_decide_iff, fun _ _ => assemble_eq and_decide_iff, rfl,
    fun _ _ => assemble_eq and_decide_iff, fun _ => assemble_eq decide_eq_true_iff, rfl, rfl, rfl, fun a v => ?_, fun a => ?_⟩
  · refine assemble_eq_assembleAll and_decide_iff (fun ⟨ha, hv⟩ => ?_) rfl
    have hlow : v % 256 ≤ 0xFF := by omega
    have hhigh : v / 256 ≤ 0xFF := by omega
    simp [Stmt.wellFormed, Config.eeMaxLen, ha, hlow, hhigh]
  · refine assemble_eq_assembleAll decide_eq_true_iff (fun ha => ?_) rfl
    simp [Stmt.wellFormed, Config.eeMaxLen, ha]

end Sys2Proof.Machine
end

section
/-! SUPPORT. EESEL, EERDB and EERDBLK from an idle block to their end (40_eeprom_read.md R130 to R134), the block of no bytes, and the poll that is
not acknowledged (R131). -/

namespace Sys2Proof.Machine

section
variable {i : Instr} {s t : State}

/-! ## Steps that issue no bus primitive -/

/-- A selector is in range where the bits outside 0..3 are 0 (R130). -/
theorem selector_inRange (bank : Byte) : bank &&& 0xFC = 0 ↔ bank.toNat ≤ 3 := by
  revert bank
  decide

/-- The select code as a number (R130). -/
theorem selectCode_eq {bank : Byte} (h : bank.toNat ≤ 3) : selectCode bank = BitVec.ofNat 8 (0xA0 + 2 * bank.toNat) := by
  revert bank
  decide

theorem eeselStep_inRange (h : s.blk.ee.bank.toNat ≤ 3) : eeselStep s =
    (s.setDevsel (selectCode s.blk.ee.bank)).done ((selectCode s.blk.ee.bank).zeroExtend 16) :=
  if_neg (not_not.2 ((selector_inRange _).2 h))

theorem eeselStep_outOfRange (h : ¬s.blk.ee.bank.toNat ≤ 3) : eeselStep s = s.done (s.params.eeInvalidBank.zeroExtend 16) :=
  if_pos (mt (selector_inRange _).1 h)

theorem truncate_zeroExtend_byte (v : Byte) : (v.zeroExtend 16 : Half).truncate 8 = v :=
  BitVec.setWidth_setWidth_of_le v (by decide)

/-- Settles O24: acceptance, and then the one step, by whether the selector is in range. -/
theorem eeselSelects : Obligations.EeselSelects := by
  refine ⟨fun bank s hb => ?_, rfl⟩
  refine ⟨_, _, exec_of_idle _ hb, exec_of_own rfl rfl, ?_⟩
  by_cases h : bank.toNat ≤ 3
  · have hcode : BitVec.ofNat 16 (0xA0 + 2 * bank.toNat) = (selectCode bank).zeroExtend 16 := by
      rw [selectCode_eq h]
      bv_omega
    rw [eeselStep_inRange h, if_pos h, if_pos h, hcode, ← selectCode_eq h]
    refine ⟨rfl, fun _ => iff_of_true ?_ h⟩
    show legalSelect (((selectCode bank).zeroExtend 16 : Half).truncate 8)
    rw [truncate_zeroExtend_byte]
    exact selectCode_legal ((selector_inRange bank).2 h)
  · rw [eeselStep_outOfRange h, if_neg h, if_neg h]
    refine ⟨rfl, fun hs => iff_of_false ?_ h⟩
    show ¬legalSelect ((s.params.eeInvalidBank.zeroExtend 16 : Half).truncate 8)
    rwa [truncate_zeroExtend_byte]

/-! A block command of no bytes in progress only executes `done(0)` (R134, R153). -/

theorem eerdblkStep_empty (hp : s.blk.ee.phase = .idle) (hl : s.blk.ee.len = 0) : eerdblkStep s = .next (s.done 0) := by
  simp only [eerdblkStep, memReadStep, hp, if_pos hl]

theorem eewrblkStep_empty (hp : s.blk.ee.phase = .idle) (hl : s.blk.ee.len = 0) : eewrblkStep s = .next (s.done 0) := by
  simp only [eewrblkStep, memWriteStep, hp, if_pos hl]

/-- Settles O28: acceptance leaves EE_PHASE at IDLE, where the engine only executes `done(0)`. -/
theorem emptyBlock : Obligations.EmptyBlock := by
  intro addr s hb
  refine ⟨⟨_, _, exec_of_idle _ hb, ?_, rfl⟩, ⟨_, _, exec_of_idle _ hb, ?_, rfl⟩⟩
  · exact (exec_of_own rfl rfl).trans (eerdblkStep_empty rfl rfl)
  · exact (exec_of_own rfl rfl).trans (eewrblkStep_empty rfl rfl)

/-! ## The last step of a read -/

/-- Settles O29: the stop condition touches the wires and their trace, and then comes `done`. -/
theorem readFinishes : Obligations.ReadFinishes := by
  intro s hb hp
  refine ⟨fun ho addr => ?_, fun ho addr len => ?_⟩
  · refine ⟨_, exec_eerdb_tStop ⟨by simp [Instr.opcode], hb, ho⟩ hp, ?_, busStop_env s, busStop_params s⟩
    simp [eeDone_eq, busStop_blk]
  · refine ⟨_, exec_eerdblk_tStop ⟨by simp [Instr.opcode], hb, ho⟩ hp, ?_, busStop_env s, busStop_params s⟩
    simp [eeDone_eq, busStop_blk]

/-! ## Whole reads -/

/-- Where a transaction has moved no more of the devices than the selected bank's pointer, the EEPROM is as it was, and the bus and the bank are
free again (R71, R77). -/
theorem free_after_read {ptr : Half} (hr : s.ready) (hq : s.busQuiet) (hsel : t.blk.devsel = s.blk.devsel) (he : t.env = s.env)
    (hp : t.params = s.params) (hv : t.banks = setBank s.banks s.selected { s.dev with ptr := ptr, mode := .idle, latch := [] }) :
    (∀ (b : Bank) (a : Nat), eepromByte t b a = eepromByte s b a) ∧ t.ready ∧ t.busQuiet ∧ t.env = s.env ∧ t.params = s.params := by
  refine ⟨fun b => eepromByte_congr ?_, ?_, fun b => ?_, he, hp⟩
  · rw [hv, bankAt_setBank]
    split
    · next h => rw [h]; rfl
    · rfl
  · rw [State.ready, hsel, hp, hv, controlAcked_setBank]
    · exact hr
    · rfl
  · rw [hv, bankAt_setBank]
    split
    · exact ⟨rfl, by simp [bankOpenLatch]⟩
    · exact hq b

/-- Settles O26: acceptance, and then the read of one byte with its poll answered at once. -/
theorem eerdbReadsTheByte : Obligations.EerdbReadsTheByte := by
  intro addr s hb hl hr hq
  have hserved := accepted_served (i := .eerdb addr) (by simp [Instr.opcode]) hl hr hq
  have hrun := execTimes_eerdb hserved 0 rfl
  have hsteps : 1 + ((s.accepted (.eerdb addr)).openingSteps - 0 % 2 + 6) = s.openingSteps + 7 := Nat.add_comm ..
  rw [polled_zero rfl, ← execTimes_accepted _ hb, hsteps] at hrun
  exact ⟨_, hrun, rfl, free_after_read hr hq rfl rfl rfl rfl⟩

theorem eepromBytes_length (s : State) (b : Bank) (a : Half) (n : Nat) : (eepromBytes s b a n).length = n := by
  simp [eepromBytes]

/-- Settles O27: acceptance, and then the read of the block, which stores its bytes in EE_BUF from index 0 on. -/
theorem eerdblkFillsTheBuffer : Obligations.EerdblkFillsTheBuffer := by
  intro addr len s hb hl hr hq hlen
  have hserved := accepted_served (i := .eerdblk addr len) (by simp [Instr.opcode]) hl hr hq
  have hphase : (s.accepted (.eerdblk addr len)).blk.ee.phase = .pollStart := if_neg hlen
  have hrun := execTimes_eerdblk hserved 0 hlen rfl (ds := eepromBytes s s.selected addr len.toNat) rfl
  have hsteps : 1 + ((s.accepted (.eerdblk addr len)).openingSteps - 0 % 2 + 5 +
      (s.accepted (.eerdblk addr len)).blk.ee.len.toNat) = s.openingSteps + 6 + len.toNat := by
    show 1 + (s.openingSteps + 5 + len.toNat) = _
    omega
  rw [polled_zero hphase, ← execTimes_accepted _ hb, hsteps] at hrun
  refine ⟨_, hrun, ⟨rfl, fun j => ?_⟩, free_after_read hr hq rfl rfl rfl rfl⟩
  show memRead (memWriteAll s.blk.buf (cellsFrom 0 (eepromBytes s s.selected addr len.toNat))) j = _
  rw [memRead_memWriteAll_cellsFrom, eepromBytes_length]
  simp only [Nat.zero_le, true_and, Nat.zero_add, Nat.sub_zero]

/-! ## The poll -/

/-- Whole turns of a poll that is not acknowledged move nothing but the wires, their trace and EE_CHUNK (R131). -/
theorem polled_even (hp : s.blk.ee.phase = .pollStart) (k : Nat) : s.polled i (2 * k) = { s with blk := { s.blk with
    ee := { s.blk.ee with chunk := if k = 0 then s.blk.ee.chunk else loadedChunk i s.blk.ee }
    bus := if k = 0 then s.blk.bus else .opened
    busTrace := s.blk.busTrace ++ s.pollEvents k } } := by
  have hmod : 2 * k % 2 = 0 := by omega
  have hdiv : 2 * k / 2 = k := by omega
  simp [State.polled, State.polledEvents, State.onBus, State.dev, setBank_self, hmod, hdiv, ← hp]

/-- Settles O30: each turn is two primitives, and `k` of them leave the state that `polled_even` writes out. -/
theorem pollWaits : Obligations.PollWaits := by
  intro i k s h1 h6 h7 hb ho hp hd hnack hq
  rw [execTimes_polled ⟨⟨h1, h6, h7⟩, hb, ho⟩ hp hd hq hnack, polled_even hp]
  rfl

end

end Sys2Proof.Machine
end

section
/-! SUPPORT. What the open device's answers can reach (20_memory.md R61, 40_eeprom_read.md R135): outside the poll a step of a command appends an
answer to the bus trace and does nothing else with it, so that two states that differ in answers alone go on to two such states. -/

namespace Sys2Proof.Machine

/-- `s` with `tr` on the bus so far and the answers `l` to come: all in which two runs with an open device can differ by its answers (R61). -/
def State.hearing (tr : List BusEvent) (l : List Ack) (s : State) : State :=
  { s with blk.busTrace := tr, env.ackIn := l }

/-- `o'` is `o` but for the answers on the bus and those to come. -/
def SameButAnswers (o o' : Result) : Prop := ∃ tr l, o' = thenNext o (State.hearing tr l)

/-- An update that reads neither the bus trace nor the answers to come, and writes neither. -/
def IgnoresAnswers (f : State → State) : Prop := ∀ tr l s, f (s.hearing tr l) = (f s).hearing tr l

@[simp] theorem hearing_blk (tr : List BusEvent) (l : List Ack) (s : State) : (s.hearing tr l).blk = { s.blk with busTrace := tr } := rfl

section
variable {s : State} {tr : List BusEvent} {a a' : Ack} {l l' : List Ack}

theorem IgnoresAnswers.same {f : State → State} (h : IgnoresAnswers f) : SameButAnswers (.next (f s)) (.next (f (s.hearing tr l))) :=
  ⟨tr, l, congrArg _ (h tr l s)⟩

/-! ## The open device -/

theorem busStart_oracle (hd : s.params.device = .oracle) : busStart s = .next (s.logBus .start .started) := by
  simp only [busStart, hd]

theorem busWrite_oracle (hd : s.params.device = .oracle) (ha : s.env.ackIn = a :: l) (x : Byte) :
    busWrite x s = (a, (s.setEnv { s.env with ackIn := l }).logBus (.write x a) .opened) := by
  simp only [busWrite, busAnswer, hd, State.oracleAck, ha]

theorem busRead_oracle (hd : s.params.device = .oracle) (m : Ack) :
    busRead m s = (s.oracleByte.1, s.oracleByte.2.logBus (.read s.oracleByte.1 m) .opened) := by
  simp only [busRead, busDatum, hd]

theorem busStop_oracle (hd : s.params.device = .oracle) : busStop s = s.logBus .stop .released := by
  simp only [busStop, hd]

theorem oracleByte_hearing (tr : List BusEvent) (l : List Ack) (s : State) :
    (s.hearing tr l).oracleByte = (s.oracleByte.1, s.oracleByte.2.hearing tr l) := by
  have hin : (s.hearing tr l).env.byteIn = s.env.byteIn := rfl
  unfold State.oracleByte
  rw [hin]
  split <;> rfl

theorem bufRead_hearing (i : Nat) (tr : List BusEvent) (l : List Ack) (s : State) :
    (s.hearing tr l).bufRead i = ((s.bufRead i).1, (s.bufRead i).2.hearing tr l) := by
  unfold State.bufRead
  rw [hearing_blk]
  dsimp only
  split <;> rfl

theorem bufRead_ackIn (i : Nat) (s : State) : (s.bufRead i).2.env.ackIn = s.env.ackIn := by
  unfold State.bufRead
  split <;> rfl

/-! ## The phases of a transaction -/

theorem startPhase_same (hd : s.params.device = .oracle) (next : EePhase) :
    SameButAnswers (startPhase next s) (startPhase next (s.hearing tr l)) := by
  rw [startPhase, startPhase, busStart_oracle hd, busStart_oracle (s := s.hearing tr l) hd]
  exact ⟨_, _, rfl⟩

/-- A byte and its answer, after which the engine does `f` (R61). -/
theorem busWrite_same {f : State → State} (hf : IgnoresAnswers f) (hd : s.params.device = .oracle) (ha : s.env.ackIn = a :: l)
    (x : Byte) : SameButAnswers (.next (f (busWrite x s).2)) (.next (f (busWrite x (s.hearing tr (a' :: l'))).2)) := by
  rw [busWrite_oracle hd ha, busWrite_oracle (s := s.hearing tr (a' :: l')) hd rfl]
  exact hf.same (s := (s.setEnv { s.env with ackIn := l }).logBus (.write x a) .opened)

theorem setPhase_ignoresAnswers (p : EePhase) : IgnoresAnswers (State.setPhase p) := fun _ _ _ => rfl

/-- A byte read, after which the engine does `f` with it (R61). -/
theorem busRead_same {f : Byte → State → State} (hf : ∀ b, IgnoresAnswers (f b)) (hd : s.params.device = .oracle) (m : Ack) :
    SameButAnswers (.next (f (busRead m s).1 (busRead m s).2))
      (.next (f (busRead m (s.hearing tr l)).1 (busRead m (s.hearing tr l)).2)) := by
  rw [busRead_oracle hd, busRead_oracle (s := s.hearing tr l) hd, oracleByte_hearing]
  exact (hf _).same (s := s.oracleByte.2.logBus (.read s.oracleByte.1 m) .opened)

theorem busStop_same {f : State → State} (hf : IgnoresAnswers f) (hd : s.params.device = .oracle) :
    SameButAnswers (.next (f (busStop s))) (.next (f (busStop (s.hearing tr l)))) := by
  rw [busStop_oracle hd, busStop_oracle (s := s.hearing tr l) hd]
  exact hf.same (s := s.logBus .stop .released)

/-- A primitive of a read outside the poll (R132, R135). -/
theorem memReadStep_same {n i : Nat} {keep : Byte → State → State} {finish : State → State} {idle idle' : Result}
    (hd : s.params.device = .oracle) (ha : s.env.ackIn = a :: l) (hp : s.blk.ee.phase ≠ .pollCtrl)
    (hkeep : ∀ b, IgnoresAnswers (keep b)) (hfinish : IgnoresAnswers finish) (hidle : SameButAnswers idle idle') :
    SameButAnswers (memReadStep n i keep finish idle s) (memReadStep n i keep finish idle' (s.hearing tr (a' :: l'))) := by
  have hdatum (next : EePhase) (b : Byte) : IgnoresAnswers fun t => (keep b t).setPhase next := fun _ _ t =>
    congrArg (State.setPhase next) (hkeep b _ _ t)
  unfold memReadStep
  rw [hearing_blk]
  cases hs : s.blk.ee.phase with
  | idle => exact hidle
  | pollStart => exact startPhase_same hd _
  | pollCtrl => exact absurd hs hp
  | tStart => exact startPhase_same hd _
  | tCtrlW => exact busWrite_same (setPhase_ignoresAnswers _) hd ha _
  | tAddrHi => exact busWrite_same (setPhase_ignoresAnswers _) hd ha _
  | tAddrLo => exact busWrite_same (setPhase_ignoresAnswers _) hd ha _
  | tRstart => exact startPhase_same hd _
  | tCtrlR => exact busWrite_same (setPhase_ignoresAnswers _) hd ha _
  | tData =>
    dsimp only
    split
    · exact busRead_same (hdatum _) hd _
    · split
      · exact busRead_same (hdatum _) hd _
      · exact ⟨tr, l, rfl⟩
  | tStop => exact busStop_same hfinish hd

/-- A primitive of a page write outside the poll (R135, R150). -/
theorem memWriteStep_same {chunk : Nat} {datum : State → Byte × State} {finish : State → State} {idle idle' : Result}
    (hd : s.params.device = .oracle) (ha : s.env.ackIn = a :: l) (hp : s.blk.ee.phase ≠ .pollCtrl)
    (hdatum : ∀ tr l s, datum (s.hearing tr l) = ((datum s).1, (datum s).2.hearing tr l))
    (hkept : ∀ s, (datum s).2.params = s.params ∧ (datum s).2.env.ackIn = s.env.ackIn)
    (hfinish : IgnoresAnswers finish) (hidle : SameButAnswers idle idle') :
    SameButAnswers (memWriteStep chunk datum finish idle s) (memWriteStep chunk datum finish idle' (s.hearing tr (a' :: l'))) := by
  unfold memWriteStep
  rw [hearing_blk]
  cases hs : s.blk.ee.phase with
  | idle => exact hidle
  | pollStart => exact startPhase_same (s := s.setEe { s.blk.ee with chunk := BitVec.ofNat 7 chunk }) hd _
  | pollCtrl => exact absurd hs hp
  | tStart => exact startPhase_same hd _
  | tCtrlW => exact busWrite_same (setPhase_ignoresAnswers _) hd ha _
  | tAddrHi => exact busWrite_same (setPhase_ignoresAnswers _) hd ha _
  | tAddrLo => exact busWrite_same (setPhase_ignoresAnswers _) hd ha _
  | tRstart => exact ⟨tr, l, rfl⟩
  | tCtrlR => exact ⟨tr, l, rfl⟩
  | tData =>
    dsimp only
    rw [hdatum]
    split
    · exact ⟨tr, l, rfl⟩
    · obtain ⟨hpar, hack⟩ := hkept s
      exact busWrite_same (f := fun t => t.setEe { t.blk.ee with
          chunk := t.blk.ee.chunk - 1, phase := if t.blk.ee.chunk = 1 then .tStop else .tData })
        (fun _ _ _ => rfl) (hpar ▸ hd) (hack.trans ha) _
  | tStop => exact busStop_same hfinish hd

/-! ## What the engines do beside the bus -/

/-- A choice by what no answer reaches. -/
theorem ite_ignoresAnswers {c : State → Prop} [∀ s, Decidable (c s)] {f g : State → State} (hc : ∀ tr l s, c (s.hearing tr l) ↔ c s)
    (hf : IgnoresAnswers f) (hg : IgnoresAnswers g) : IgnoresAnswers fun s => if c s then f s else g s := by
  intro tr l s
  dsimp only
  by_cases h : c s
  · rw [if_pos h, if_pos ((hc tr l s).2 h), hf]
  · rw [if_neg h, if_neg (mt (hc tr l s).1 h), hg]

theorem chunkDone_ignoresAnswers : IgnoresAnswers chunkDone :=
  ite_ignoresAnswers (fun _ _ _ => Iff.rfl) (fun _ _ _ => rfl) fun _ _ _ => rfl

theorem eeselStep_ignoresAnswers : IgnoresAnswers eeselStep :=
  ite_ignoresAnswers (fun _ _ _ => Iff.rfl) (fun _ _ _ => rfl) fun _ _ _ => rfl

theorem frameDone_ignoresAnswers : IgnoresAnswers frameDone :=
  ite_ignoresAnswers (fun _ _ _ => Iff.rfl) (fun _ _ _ => rfl) fun _ _ _ => rfl

theorem acceptBit_ignoresAnswers (b : Bool) : IgnoresAnswers (acceptBit b) :=
  ite_ignoresAnswers (fun _ _ _ => Iff.rfl) (fun _ _ _ => rfl) fun _ _ _ => rfl

theorem classify_ignoresAnswers (n : Nat) : IgnoresAnswers (classify n) :=
  ite_ignoresAnswers (fun _ _ _ => Iff.rfl) (fun _ _ _ => rfl) <|
    ite_ignoresAnswers (fun _ _ _ => Iff.rfl) (fun tr l s => acceptBit_ignoresAnswers _ tr l s) fun _ _ _ => rfl

theorem onSample_ignoresAnswers (level : Bool) : IgnoresAnswers (onSample level) :=
  ite_ignoresAnswers (fun _ _ _ => Iff.rfl) (fun _ _ _ => rfl) <|
    ite_ignoresAnswers (fun _ _ _ => Iff.rfl) (fun _ _ _ => rfl) fun tr l s =>
      classify_ignoresAnswers _ tr l (s.setRx { s.blk.rx with pulse := 0 })

theorem sampleIr_hearing (tr : List BusEvent) (l : List Ack) (s : State) :
    (s.hearing tr l).sampleIr = (s.sampleIr.1, s.sampleIr.2.hearing tr l) := by
  have hin : (s.hearing tr l).env.irIn = s.env.irIn := rfl
  unfold State.sampleIr
  rw [hin]
  split <;> rfl

theorem bufWrite_ignoresAnswers (k : Nat) (b : Byte) : IgnoresAnswers fun s => s.bufWrite k b :=
  ite_ignoresAnswers (fun _ _ _ => Iff.rfl) (fun _ _ _ => rfl) fun _ _ _ => rfl

theorem storeDatum_ignoresAnswers (b : Byte) : IgnoresAnswers (storeDatum b) := fun tr l s =>
  congrArg (fun t : State => t.setEe { t.blk.ee with done := t.blk.ee.done + 1 }) (bufWrite_ignoresAnswers s.blk.ee.done.toNat b tr l s)

theorem loadsOf_ignoresAnswers (i : Instr) : IgnoresAnswers fun s => loadsOf i (s.accept i.opcode) := by
  cases i <;> exact fun _ _ _ => rfl

/-! ## The engines -/

/-- The engine of IRTX has no part in the bus (R171, R172). -/
theorem irtxStep_same (s : State) : SameButAnswers (irtxStep s) (irtxStep (s.hearing tr l)) := by
  refine ⟨tr, l, ?_⟩
  unfold irtxStep
  rw [hearing_blk]
  dsimp only
  cases s.blk.tx.phase with
  | idle => rfl
  | hdrOn => rfl
  | hdrGap => rfl
  | bitOn => rfl
  | bitGap =>
    dsimp only
    split
    · rfl
    · exact congrArg _ (frameDone_ignoresAnswers tr l (emit false Config.tGap s))
  | frameGap => rfl

/-- Nor has that of IRRX (R191). -/
theorem irrxStep_same (s : State) : SameButAnswers (irrxStep s) (irrxStep (s.hearing tr l)) := by
  unfold irrxStep
  rw [hearing_blk, sampleIr_hearing]
  split
  · exact ⟨tr, l, rfl⟩
  · exact (onSample_ignoresAnswers _).same

/-- The one step of a block command with no bytes (R134, R153). -/
theorem emptyBlock_same (s : State) : SameButAnswers (if s.blk.ee.len = 0 then .next (s.done 0) else .fault .noPosition)
    (if (s.hearing tr l).blk.ee.len = 0 then .next ((s.hearing tr l).done 0) else .fault .noPosition) := by
  rw [hearing_blk]
  split
  · exact ⟨tr, l, rfl⟩
  · exact ⟨tr, l, rfl⟩

/-- A step of an engine, outside the poll. -/
theorem engineOf_same (i : Instr) (hd : s.params.device = .oracle) (ha : s.env.ackIn = a :: l) (hp : s.blk.ee.phase ≠ .pollCtrl) :
    SameButAnswers (engineOf i s) (engineOf i (s.hearing tr (a' :: l'))) := by
  cases i with
  | eesel bank => exact eeselStep_ignoresAnswers.same
  | eerdb addr =>
    simp only [engineOf, eerdbStep]
    exact memReadStep_same hd ha hp (fun _ _ _ _ => rfl) (fun _ _ _ => rfl) ⟨tr, l, rfl⟩
  | eerdblk addr len =>
    simp only [engineOf, eerdblkStep_eq]
    exact memReadStep_same hd ha hp storeDatum_ignoresAnswers (fun _ _ _ => rfl) (emptyBlock_same s)
  | eewrb addr value =>
    exact memWriteStep_same (datum := fun t => (t.blk.ee.val, t)) hd ha hp (fun _ _ _ => rfl) (fun _ => ⟨rfl, rfl⟩) (fun _ _ _ => rfl)
      ⟨tr, l, rfl⟩
  | eewrblk addr len =>
    exact memWriteStep_same (datum := blockDatum) hd ha hp (fun tr l s => bufRead_hearing _ tr l s)
      (fun t => ⟨bufRead_params _ t, bufRead_ackIn _ t⟩) chunkDone_ignoresAnswers (emptyBlock_same s)
  | irtx command address => exact irtxStep_same s
  | irrx => exact irrxStep_same s

/-- A step of a command outside the poll: what differs in answers alone goes on to what differs in answers alone (R135). -/
theorem exec_same (i : Instr) (hd : s.params.device = .oracle) (ha : s.env.ackIn = a :: l) (hp : s.blk.ee.phase ≠ .pollCtrl) :
    SameButAnswers (exec i s) (exec i (s.hearing tr (a' :: l'))) := by
  cases hb : s.blk.busy with
  | false =>
    rw [exec_of_idle i hb, exec_of_idle i (s := s.hearing tr (a' :: l')) hb]
    exact (loadsOf_ignoresAnswers i).same
  | true =>
    by_cases ho : s.blk.op = i.opcode
    · rw [exec_of_own hb ho, exec_of_own (s := s.hearing tr (a' :: l')) hb ho]
      exact engineOf_same i hd ha hp
    · rw [exec_of_other hb ho, exec_of_other (s := s.hearing tr (a' :: l')) hb ho]
      exact ⟨_, _, rfl⟩

/-- Settles O39: the second run is the first with another answer heard. -/
theorem answersAreIgnored : Obligations.AnswersAreIgnored := by
  intro i a a' rest s t t' hd hp ht ht'
  obtain ⟨tr, l, h⟩ := exec_same (s := { s with env.ackIn := a :: rest }) (tr := s.blk.busTrace) (a' := a') (l' := rest) i hd rfl hp
  rw [ht] at h
  cases ht'.symm.trans h
  exact ⟨rfl, rfl⟩

end

end Sys2Proof.Machine
end

section
/-! SUPPORT. The chunk rule, and EEWRB and EEWRBLK from an idle block to their end with the whole block written out (41_eeprom_write.md R150 to
R155). -/

namespace Sys2Proof.Machine

/-! ## The chunk rule -/

theorem pageChunk_of_fits {addr : Half} {len : BitVec 7} (h : addr.toNat % 128 + len.toNat ≤ 128) : pageChunk addr len = len.toNat := by
  rw [pageChunk_eq]
  omega

theorem pageChunk_of_crosses {addr : Half} {len : BitVec 7} (h : 128 < addr.toNat % 128 + len.toNat) :
    pageChunk addr len = 128 - addr.toNat % 128 := by
  rw [pageChunk_eq]
  omega

theorem ne_zero_of_toNat_pos {len : BitVec 7} (h : 0 < len.toNat) : len ≠ 0 := fun h0 => h.ne' (congrArg BitVec.toNat h0)

theorem toNat_sub_ofNat {len : BitVec 7} {n : Nat} (h : n ≤ len.toNat) : (len - BitVec.ofNat 7 n).toNat = len.toNat - n := by
  have hlt := len.isLt
  rw [BitVec.toNat_sub, BitVec.toNat_ofNat]
  omega

theorem toNat_add_ofNat (addr : Half) (n : Nat) : (addr + BitVec.ofNat 16 n).toNat = (addr.toNat + n) % 65536 := by
  rw [BitVec.toNat_add, BitVec.toNat_ofNat, Nat.add_mod_mod]

/-- Settles O33: `(addr | 127) + 1` is the next multiple of 128 (`pageBoundary_eq`), and the rest is arithmetic. -/
theorem chunkRule : Obligations.ChunkRule := by
  intro addr len hlen
  have haddr := addr.isLt
  have hboundary := pageBoundary_eq addr
  have hchunk : pageChunk addr len = min len.toNat (pageBoundary addr - addr.toNat) := rfl
  refine ⟨rfl, ?_, ?_, ?_, ?_, ?_, hchunk, ?_, ?_, ?_⟩ <;> omega

/-- Settles O34: the block stays in its page and the first chunk takes it all, or it crosses and the first chunk fills the page, so that the
second begins a page of its own. -/
theorem chunkSequence : Obligations.ChunkSequence := by
  intro addr len hlen n addr' len'
  have hlt := len.isLt
  have hzero : len' = 0 ↔ len'.toNat = 0 := BitVec.toNat_inj.symm
  by_cases hfit : addr.toNat % 128 + len.toNat ≤ 128
  · have hn : n = len.toNat := pageChunk_of_fits hfit
    have hleft : len'.toNat = len.toNat - n := toNat_sub_ofNat hn.le
    have hdone : len' = 0 := hzero.2 (by omega)
    exact ⟨by omega, iff_of_true hdone hfit, fun hmore => absurd hdone hmore⟩
  · have hn : n = 128 - addr.toNat % 128 := pageChunk_of_crosses (by omega)
    have hleft : len'.toNat = len.toNat - n := toNat_sub_ofNat (by omega)
    have hmore : len' ≠ 0 := mt hzero.1 (by omega)
    have haddr' : addr'.toNat = (addr.toNat + n) % 65536 := toNat_add_ofNat addr n
    exact ⟨by omega, iff_of_false hmore hfit, fun _ => ⟨by omega, by omega, haddr', pageChunk_of_fits (by omega)⟩⟩

section
variable {i : Instr} {s t u : State} {a : Half} {l : BitVec 7} {ds es : List Byte}

/-! ## The last step of a write -/

/-- Settles O37: the stop condition touches the wires and their trace, and then comes `done` or the next chunk. -/
theorem writeFinishes : Obligations.WriteFinishes := by
  intro s hb hp
  refine ⟨fun ho addr value => ?_, fun ho addr len => ?_⟩
  · refine ⟨_, exec_eewrb_tStop ⟨by simp [Instr.opcode], hb, ho⟩ hp, ?_, busStop_env s, busStop_params s⟩
    simp [eeDone_eq, busStop_blk]
  · refine ⟨_, exec_eewrblk_tStop ⟨by simp [Instr.opcode], hb, ho⟩ hp, ?_⟩
    have hee : (busStop s).blk.ee = s.blk.ee := by rw [busStop_blk]
    by_cases hlast : s.blk.ee.len - BitVec.ofNat 7 (pageChunk s.blk.ee.addr s.blk.ee.len) = 0
    · rw [chunkDone_last (s := busStop s) (by rwa [hee])]
      refine ⟨?_, busStop_env s, busStop_params s⟩
      simp [hlast, busStop_blk]
    · have hmore : s.blk.ee.len - BitVec.ofNat 7 (pageChunk s.blk.ee.addr s.blk.ee.len) ≠ 0#7 := hlast
      rw [chunkDone_more (s := busStop s) (by rwa [hee])]
      refine ⟨?_, busStop_env s, busStop_params s⟩
      simp [hmore, hb, State.setEe, busStop_blk]

/-! ## EEWRB -/

/-- A page write changes no byte of the EEPROM before the commit (R76). -/
theorem eepromByte_of_written (hv : t.banks = setBank s.banks s.selected (s.writtenDev a ds)) (b : Bank) (x : Nat) :
    eepromByte t b x = eepromByte s b x := by
  refine eepromByte_congr ?_ x
  rw [hv, bankAt_setBank]
  split
  · next h => rw [h]; rfl
  · rfl

theorem busy_of_written (hds : ds ≠ []) (hv : t.banks = setBank s.banks s.selected (s.writtenDev a ds)) :
    (bankAt t.banks s.selected).busy = true := by
  rw [hv, bankAt_setBank_same]
  exact writtenDev_busy s a hds

/-- Settles O32: acceptance, and then the page write of one byte with its poll answered at once. -/
theorem eewrbWritesTheByte : Obligations.EewrbWritesTheByte := by
  intro addr value s hb hl hr hq
  have hserved := accepted_served (i := .eewrb addr value) (by simp [Instr.opcode]) hl hr hq
  have hrun := execTimes_eewrb hserved 0
  have hsteps : 1 + ((s.accepted (.eewrb addr value)).openingSteps - 0 % 2 + 4) = s.openingSteps + 5 := Nat.add_comm ..
  rw [polled_zero rfl, ← execTimes_accepted _ hb, hsteps] at hrun
  obtain ⟨t, ht, _, hcyc, _, hp, hv⟩ := eewrb_written addr value hb hl hr hq
  obtain rfl := Host.Outcome.next.inj (hrun.symm.trans ht)
  exact ⟨_, hrun, rfl, eepromByte_of_written hv, busy_of_written (List.cons_ne_nil _ _) hv, hcyc.quiet, rfl, hp, hcyc.ready,
    eepromByte_written_byte hv⟩

/-! ## The state after a page write of EEWRBLK -/

/-- The EEWRBLK in progress at `s` after the stop condition of its next page write, which has carried the bytes `ds`: the poll before it was not
acknowledged for `m` primitives, and `E` is what the look-ups of EE_BUF have left of the surroundings (R150, R153; log 4). -/
def State.pageDone (s : State) (m : Nat) (ds : List Byte) (E : Env) : State :=
  chunkDone ((s.setEnv E).onBus { s.blk.ee with chunk := 0, phase := .tStop } .released
    (s.pollEvents (m / 2) ++ s.writeEvents s.blk.ee.addr ds) (s.writtenDev s.blk.ee.addr ds))

theorem chunkDone_banks (s : State) : (chunkDone s).banks = s.banks := by
  by_cases h : s.blk.ee.len - BitVec.ofNat 7 (pageChunk s.blk.ee.addr s.blk.ee.len) = 0
  · rw [chunkDone_last h]
  · rw [chunkDone_more h]; rfl

theorem pageDone_bank (s : State) (m : Nat) (ds : List Byte) (E : Env) :
    bankAt (s.pageDone m ds E).banks s.selected = s.writtenDev s.blk.ee.addr ds := by
  rw [State.pageDone, chunkDone_banks]
  exact onBus_bank

/-- The latch tells which bytes a page write has carried. -/
theorem writtenDev_injective (s : State) (a : Half) : Function.Injective (s.writtenDev a) := by
  have hlatch (xs : List Byte) : (s.writtenDev a xs).latch.map Prod.snd = xs :=
    List.ext_getElem (by simp [State.writtenDev, bankOnStop]) fun j _ _ => by simp [State.writtenDev, bankOnStop]
  intro ds es h
  rw [← hlatch ds, h, hlatch es]

/-- A page write of EEWRBLK from wherever its poll stands through its stop condition, with the state it ends in (R153). -/
theorem exists_pageDone (h : s.Served (.eewrblk a l)) (m : Nat) (hlen : s.blk.ee.len ≠ 0) :
    ∃ ds E, execTimes (s.openingSteps - m % 2 + 3 + pageChunk s.blk.ee.addr s.blk.ee.len) (.eewrblk a l) (s.polled (.eewrblk a l) m) =
      .next (s.pageDone m ds E) ∧ s.PageWritten (.eewrblk a l) ds (s.pageDone m ds E) := by
  obtain ⟨ds, E, _, _, hrun⟩ := execTimes_eewrblk_page h m hlen
  obtain ⟨es, t, hrun', hpage⟩ := exists_pageWritten h m hlen
  obtain rfl : s.pageDone m ds E = t := Host.Outcome.next.inj (hrun.symm.trans hrun')
  have hbank := pageDone_bank s m ds E
  rw [hpage.banks, bankAt_setBank_same] at hbank
  obtain rfl := writtenDev_injective s s.blk.ee.addr hbank
  exact ⟨_, E, hrun, hpage⟩

/-- The block after the last page write (R153). -/
theorem pageDone_last_blk {m : Nat} {E : Env} (h : ds.length = pageChunk s.blk.ee.addr s.blk.ee.len)
    (hl : s.blk.ee.len.toNat = ds.length) : (s.pageDone m ds E).blk = { s.blk with
      busy := false, result := (s.blk.ee.done + s.blk.ee.len).zeroExtend 16
      ee := { s.blk.ee with
        addr := s.blk.ee.addr + s.blk.ee.len.zeroExtend 16, len := 0, done := s.blk.ee.done + s.blk.ee.len, chunk := 0, phase := .idle }
      bus := .released, busTrace := s.blk.busTrace ++ (s.pollEvents (m / 2) ++ s.writeEvents s.blk.ee.addr ds) } := by
  have hchunk : pageChunk s.blk.ee.addr s.blk.ee.len = s.blk.ee.len.toNat := h.symm.trans hl.symm
  have hlen (w : Nat) : BitVec.ofNat w s.blk.ee.len.toNat = s.blk.ee.len.setWidth w := BitVec.ofNat_toNat w _
  rw [State.pageDone, chunkDone_last (by simp [hchunk])]
  simp only [onBus_ee, hchunk, hlen, BitVec.setWidth_eq]
  rfl

/-- The block after a page write with bytes left (R153). -/
theorem pageDone_more_blk {m : Nat} {E : Env} (h : ds.length = pageChunk s.blk.ee.addr s.blk.ee.len)
    (hl : ds.length < s.blk.ee.len.toNat) : (s.pageDone m ds E).blk = { s.blk with
      ee := { s.blk.ee with
        addr := s.blk.ee.addr + BitVec.ofNat 16 ds.length, len := s.blk.ee.len - BitVec.ofNat 7 ds.length
        done := s.blk.ee.done + BitVec.ofNat 7 ds.length
        chunk := BitVec.ofNat 7 (pageChunk (s.blk.ee.addr + BitVec.ofNat 16 ds.length) (s.blk.ee.len - BitVec.ofNat 7 ds.length))
        phase := .pollStart }
      bus := .released, busTrace := s.blk.busTrace ++ (s.pollEvents (m / 2) ++ s.writeEvents s.blk.ee.addr ds) } := by
  have hleft : s.blk.ee.len - BitVec.ofNat 7 ds.length ≠ 0 :=
    ne_zero_of_toNat_pos (by rw [toNat_sub_ofNat hl.le]; exact Nat.sub_pos_of_lt hl)
  rw [State.pageDone, chunkDone_more (by simpa only [onBus_ee, ← h] using hleft)]
  simp only [onBus_ee, ← h]
  rfl

/-! ## EEWRBLK -/

/-- EEWRBLK with bytes to write, from an idle block through its first page write, with the state it ends in (R153). -/
theorem eewrblk_firstPageDone (addr : Half) {len : BitVec 7} (hb : s.blk.busy = false)
    (hs : (s.accepted (.eewrblk addr len)).Served (.eewrblk addr len)) (hlen : len ≠ 0) :
    ∃ ds E, execTimes (s.openingSteps + 4 + pageChunk addr len) (.eewrblk addr len) s =
        .next ((s.accepted (.eewrblk addr len)).pageDone 0 ds E) ∧
      (s.accepted (.eewrblk addr len)).PageWritten (.eewrblk addr len) ds ((s.accepted (.eewrblk addr len)).pageDone 0 ds E) := by
  obtain ⟨ds, E, hrun, hpage⟩ := exists_pageDone hs 0 hlen
  have hsteps : 1 + ((s.accepted (.eewrblk addr len)).openingSteps - 0 % 2 + 3 + pageChunk addr len) =
      s.openingSteps + 4 + pageChunk addr len := by
    show 1 + (s.openingSteps + 3 + pageChunk addr len) = _
    omega
  rw [polled_zero (if_neg hlen), ← execTimes_accepted _ hb] at hrun
  exact ⟨ds, E, hsteps ▸ hrun, hpage⟩

/-- What acceptance of EEWRBLK leaves of EE_DONE and EE_LEN sums to the length of the block (R38). -/
theorem accepted_count (addr : Half) (len : BitVec 7) (s : State) :
    (s.accepted (.eewrblk addr len)).blk.ee.done + (s.accepted (.eewrblk addr len)).blk.ee.len = len := BitVec.zero_add len

/-- Settles O35: acceptance, and then the one page write, whose chunk is the whole block. -/
theorem eewrblkWritesOnePage : Obligations.EewrblkWritesOnePage := by
  intro addr len s hb hl hr hq hlen hfit hcap
  have hs := accepted_served (i := .eewrblk addr len) (by simp [Instr.opcode]) hl hr hq
  obtain ⟨ds, E, hrun, hpage⟩ := eewrblk_firstPageDone addr hb hs hlen
  have hdslen : ds.length = len.toNat := hpage.length.trans (pageChunk_of_fits hfit)
  obtain ⟨hpos, _⟩ := pageChunk_bounds (addr := addr) hlen
  have hne : ds ≠ [] := List.ne_nil_of_length_pos (hpage.length ▸ hpos)
  have hbytes : s.holdsFrom 0 ds := hpage.bytes
  have hblk := pageDone_last_blk (m := 0) (E := E) hpage.length hdslen.symm
  rw [accepted_count] at hblk
  refine ⟨_, ds, pageChunk_of_fits hfit ▸ hrun, hdslen, fun j v hj hv => hbytes j v (by omega) (by rwa [Nat.zero_add]), hblk,
    busy_of_written hne hpage.banks, (hpage.cycles hs hne).quiet, hpage.params, ?_⟩
  rw [← hdslen]
  exact hpage.eepromByte hne hcap

/-- After a page write with bytes left, the poll of the next one lasts through the write cycle, and then the next page is written: both with the
state they end in (R153). -/
theorem State.PageWritten.nextPageDone (h : s.PageWritten (.eewrblk a l) ds u) (hs : s.Served (.eewrblk a l)) (hds : ds ≠ [])
    (hmore : ds.length < s.blk.ee.len.toNat) (m : Nat) :
    ∃ es E, execTimes m (.eewrblk a l) u = .next (u.polled (.eewrblk a l) m) ∧
      execTimes (s.openingSteps - m % 2 + 3 + pageChunk u.blk.ee.addr u.blk.ee.len) (.eewrblk a l)
        (commitStep s.selected (u.polled (.eewrblk a l) m)) = .next ((commitStep s.selected u).pageDone m es E) ∧
      (commitStep s.selected u).Served (.eewrblk a l) ∧
      (commitStep s.selected u).PageWritten (.eewrblk a l) es ((commitStep s.selected u).pageDone m es E) := by
  have hcyc := h.cycles hs hds
  obtain ⟨hruns, hpoll, _, hleft, _⟩ := h.more hmore.ne'
  have hserved := hcyc.served hruns
  have hlen : u.blk.ee.len ≠ 0 := ne_zero_of_toNat_pos (hleft ▸ Nat.sub_pos_of_lt hmore)
  obtain ⟨es, E, hrun, hpage⟩ := exists_pageDone hserved m hlen
  rw [← commitStep_polled] at hrun
  rw [h.selected] at hrun hserved hpage
  refine ⟨es, E, execTimes_polled hruns hpoll hcyc.device hcyc.quiet hcyc.nack m, ?_, hserved, hpage⟩
  rw [← openingSteps_congr h.params]
  exact hrun

/-- Where the first page write ends at its page's last byte, the second chunk is all that is left (R154). -/
theorem State.PageWritten.nextChunk (h : s.PageWritten i ds u) (hpage : s.blk.ee.addr.toNat % 128 + ds.length = 128)
    (hmore : ds.length < s.blk.ee.len.toNat) : pageChunk u.blk.ee.addr u.blk.ee.len = s.blk.ee.len.toNat - ds.length := by
  obtain ⟨_, _, haddr, hleft, _⟩ := h.more hmore.ne'
  have hstart := toNat_add_ofNat s.blk.ee.addr ds.length
  have hlt := u.blk.ee.len.isLt
  rw [← hleft, pageChunk_of_fits]
  rw [haddr, hstart]
  omega

/-- What is left of the block ends where the block ends (R153). -/
theorem State.PageWritten.sums (h : s.PageWritten i ds u) (hmore : ds.length < s.blk.ee.len.toNat) :
    u.blk.ee.addr + u.blk.ee.len.zeroExtend 16 = s.blk.ee.addr + s.blk.ee.len.zeroExtend 16 ∧
    u.blk.ee.done + u.blk.ee.len = s.blk.ee.done + s.blk.ee.len := by
  obtain ⟨_, _, haddr, hleft, hdone⟩ := h.more hmore.ne'
  rw [haddr, hdone]
  constructor <;> bv_omega

theorem commitStep_blk (b : Bank) (s : State) : (commitStep b s).blk = s.blk := rfl

theorem eepromByte_polled (i : Instr) (m : Nat) (s : State) (b : Bank) (x : Nat) : eepromByte (s.polled i m) b x = eepromByte s b x :=
  eepromByte_congr (by rw [State.polled, State.onBus, State.dev, setBank_self]) x

theorem writeEvents_congr (hsel : t.blk.devsel = s.blk.devsel) (hp : t.params = s.params) : t.writeEvents a ds = s.writeEvents a ds := by
  simp only [State.writeEvents, State.openingEvents, hsel, hp]

theorem pollEvents_congr (hsel : t.blk.devsel = s.blk.devsel) (k : Nat) : t.pollEvents k = s.pollEvents k := by
  simp only [State.pollEvents, hsel]

/-- The block after the second of two page writes (R153). -/
theorem pageDone_twice_blk {k m : Nat} {E E' : Env} (hu : s.pageDone k ds E = u) (h : s.PageWritten i ds u)
    (hmore : ds.length < s.blk.ee.len.toNat) (h' : es.length = pageChunk u.blk.ee.addr u.blk.ee.len)
    (hlen : s.blk.ee.len.toNat = ds.length + es.length) : ((commitStep s.selected u).pageDone m es E').blk = { s.blk with
      busy := false, result := (s.blk.ee.done + s.blk.ee.len).zeroExtend 16
      ee := { s.blk.ee with
        addr := s.blk.ee.addr + s.blk.ee.len.zeroExtend 16, len := 0, done := s.blk.ee.done + s.blk.ee.len, chunk := 0, phase := .idle }
      bus := .released
      busTrace := s.blk.busTrace ++ (s.pollEvents (k / 2) ++ s.writeEvents s.blk.ee.addr ds) ++
        (s.pollEvents (m / 2) ++ s.writeEvents (s.blk.ee.addr + BitVec.ofNat 16 ds.length) es) } := by
  obtain ⟨_, _, haddr, hleft, _⟩ := h.more hmore.ne'
  obtain ⟨hend, hcount⟩ := h.sums hmore
  have hublk := pageDone_more_blk (m := k) (E := E) h.length hmore
  rw [hu] at hublk
  have htblk := pageDone_last_blk (s := commitStep s.selected u) (m := m) (E := E') h' (by show u.blk.ee.len.toNat = _; omega)
  rw [writeEvents_congr (t := commitStep s.selected u) h.devsel h.params,
    pollEvents_congr (t := commitStep s.selected u) h.devsel] at htblk
  simp only [commitStep_blk, hend, hcount] at htblk
  rw [htblk, haddr, hublk]

/-- What is on the bus in the poll after a page write (R131, R150). -/
theorem pageDone_polled_busTrace {k m : Nat} {E : Env} (hu : s.pageDone k ds E = u) (h : s.PageWritten i ds u)
    (hmore : ds.length < s.blk.ee.len.toNat) : (u.polled i m).blk.busTrace =
      s.blk.busTrace ++ (s.pollEvents (k / 2) ++ s.writeEvents s.blk.ee.addr ds) ++
        (s.pollEvents (m / 2) ++ if m % 2 = 1 then [.start] else []) := by
  have hublk := pageDone_more_blk (m := k) (E := E) h.length hmore
  rw [hu] at hublk
  show u.blk.busTrace ++ (u.pollEvents (m / 2) ++ _) = _
  rw [hublk, pollEvents_congr h.devsel]

/-- EEWRBLK across a page boundary, from an idle block through both its page writes, `m` primitives of the second one's poll before the first
commit (R153, R154). -/
theorem eewrblk_twoPagesDone (addr : Half) {len : BitVec 7} (m : Nat) (hb : s.blk.busy = false)
    (hs : (s.accepted (.eewrblk addr len)).Served (.eewrblk addr len)) (hlong : 128 < addr.toNat % 128 + len.toNat) :
    ∃ ds es u E E', (s.accepted (.eewrblk addr len)).pageDone 0 ds E = u ∧
      (s.accepted (.eewrblk addr len)).PageWritten (.eewrblk addr len) ds u ∧
      (commitStep s.selected u).Served (.eewrblk addr len) ∧
      (commitStep s.selected u).PageWritten (.eewrblk addr len) es ((commitStep s.selected u).pageDone m es E') ∧
      ds.length = 128 - addr.toNat % 128 ∧ es.length = len.toNat - ds.length ∧
      execTimes (s.openingSteps + 4 + ds.length + m) (.eewrblk addr len) s = .next (u.polled (.eewrblk addr len) m) ∧
      execTimes (s.openingSteps + 3 + (len.toNat - ds.length) - m % 2) (.eewrblk addr len)
        (commitStep s.selected (u.polled (.eewrblk addr len) m)) = .next ((commitStep s.selected u).pageDone m es E') := by
  have hltlen := len.isLt
  obtain ⟨ds, E, hrun, hfirst⟩ := eewrblk_firstPageDone addr hb hs (ne_zero_of_toNat_pos (by omega))
  have hchunk : ds.length = pageChunk addr len := hfirst.length
  have hdslen : ds.length = 128 - addr.toNat % 128 := hchunk.trans (pageChunk_of_crosses hlong)
  have hmore : ds.length < len.toNat := by omega
  obtain ⟨es, E', hpoll, hrun', hs', hsecond⟩ := hfirst.nextPageDone hs (List.ne_nil_of_length_pos (by omega)) hmore m
  have hchunk' := hfirst.nextChunk (show addr.toNat % 128 + ds.length = 128 by omega) hmore
  have hsteps : s.openingSteps - m % 2 + 3 + (len.toNat - ds.length) = s.openingSteps + 3 + (len.toNat - ds.length) - m % 2 := by
    have := two_le_openingSteps s
    omega
  rw [hchunk'] at hrun'
  exact ⟨ds, es, _, E, E', rfl, hfirst, hs', hsecond, hdslen, hsecond.length.trans hchunk',
    (execTimes_add (hchunk ▸ hrun) m).trans hpoll, hsteps ▸ hrun'⟩

/-- The commit of the first page in the middle of the poll puts its bytes in place, whatever bytes of the block are still to come (R76, R155). -/
theorem eepromByte_commit_polled (h : s.PageWritten i ds u) (hds : ds ≠ []) (hcap : s.params.eeCapacity = 65536) (m : Nat)
    (b : Bank) (x : Nat) : eepromByte (commitStep s.selected (u.polled i m)) b x =
      if b = s.selected ∧ s.blk.ee.addr.toNat ≤ x ∧ x < s.blk.ee.addr.toNat + ds.length then (ds ++ es).getD (x - s.blk.ee.addr.toNat) 0
      else eepromByte s b x := by
  rw [← h.selected, commitStep_polled, eepromByte_polled, h.selected, h.eepromByte hds hcap]
  exact if_ctx_congr Iff.rfl (fun hx => (List.getD_append _ _ _ _ (Nat.sub_lt_left_of_lt_add hx.2.1 hx.2.2)).symm) fun _ => rfl

/-- Settles O36: acceptance, the page write to the end of the page, the poll through its write cycle, and the page write of what is left. -/
theorem eewrblkWritesTwoPages : Obligations.EewrblkWritesTwoPages := by
  intro addr len m s hb hl hr hq hlong hcap n
  have hltlen := len.isLt
  have hs := accepted_served (i := .eewrblk addr len) (by simp [Instr.opcode]) hl hr hq
  obtain ⟨ds, es, u, E, E', hu, hfirst, hs', hsecond, hdslen, heslen, hrun, hrun'⟩ := eewrblk_twoPagesDone addr m hb hs hlong
  have hds : ds ≠ [] := List.ne_nil_of_length_pos (by omega)
  have hes : es ≠ [] := List.ne_nil_of_length_pos (by omega)
  have hmore : ds.length < len.toNat := by omega
  have hlength : len.toNat = ds.length + es.length := by omega
  have hblock := hfirst.blockWritten hds hes hsecond hs' rfl (show addr.toNat % 128 + ds.length = 128 by omega) hlength hcap
  have hbytes : s.holdsFrom 0 (ds ++ es) := hblock.bytes
  have htrace := pageDone_polled_busTrace (m := m) hu hfirst hmore
  have hblk := pageDone_twice_blk (m := m) (E' := E') hu hfirst hmore hsecond.length hlength
  have hbusy := busy_of_written hes hsecond.banks
  obtain ⟨hruns, _⟩ := hfirst.more hmore.ne'
  rw [accepted_count, ← List.append_assoc] at hblk
  rw [← List.append_assoc] at htrace
  rw [show (commitStep _ u).selected = s.selected from hfirst.selected] at hbusy
  rw [← List.length_append] at hlength
  have hn : ds.length = n := hdslen
  rw [← hn]
  refine ⟨u.polled (.eewrblk addr len) m, (commitStep s.selected u).pageDone m es E', ds ++ es, hrun, hrun', hruns.busy, hlength.symm,
    fun j v hj hv => hbytes j v (by omega) (by rwa [Nat.zero_add]), ?_, ?_, hbusy, hblock.cycles.quiet, hblock.params,
    eepromByte_commit_polled hfirst hds hcap m, ?_⟩
  · rw [List.take_left' rfl]
    exact htrace
  · rw [List.take_left' rfl, List.drop_left' rfl]
    exact hblk
  · rw [hlength]
    exact hblock.stored

end

end Sys2Proof.Machine
end

section
/-! SUPPORT. IRTX from an idle block to its end, frame by frame (42_ir_transmit.md R170 to R172), and how long it lasts (R174). -/

namespace Sys2Proof.Machine

/-! ## Durations -/

theorem duration_append (l m : List Segment) : duration (l ++ m) = duration l + duration m := by simp [duration]

/-- A 1 lasts `T_ONE - T_ZERO` longer than a 0 (R112). -/
theorem duration_bitSegments (b : Bool) :
    duration (bitSegments b) = Config.tZero + Config.tGap + b.toNat * (Config.tOne - Config.tZero) := by
  cases b <;> rfl

/-- Every bit lasts a 0, and each 1 among them the difference more. -/
theorem duration_flatMap_bitSegments (f : Nat → Bool) (n : Nat) :
    duration ((List.range n).flatMap fun k => bitSegments (f k)) =
      n * (Config.tZero + Config.tGap) + ((List.range n).filter f).length * (Config.tOne - Config.tZero) := by
  induction n with
  | zero => simp [duration]
  | succ n ih =>
    have hbit : ([n].filter f).length = (f n).toNat := by cases hf : f n <;> simp [hf]
    rw [List.range_succ, List.flatMap_append, List.flatMap_singleton, duration_append, ih, duration_bitSegments, List.filter_append,
      List.length_append, hbit]
    ring

theorem duration_frameSegments (w : BitVec 12) : duration (frameSegments w) =
    Config.tHdr + Config.tGap + 12 * (Config.tZero + Config.tGap) + ones w * (Config.tOne - Config.tZero) := by
  rw [frameSegments, duration_append, duration_flatMap_bitSegments, Nat.add_assoc]
  rfl

theorem duration_transmitSegments (w : BitVec 12) :
    duration (transmitSegments w) = 3 * duration (frameSegments w) + 2 * Config.tFrameGap := by
  have hgap : duration [⟨false, Config.tFrameGap⟩] = Config.tFrameGap := rfl
  simp only [transmitSegments, duration_append, hgap]
  ring

/-- A frame word has twelve bits. -/
theorem ones_le (w : BitVec 12) : ones w ≤ 12 := (List.length_filter_le _ _).trans_eq List.length_range

/-- Settles O48: bit by bit over the frame, and the bounds are those of `ones`. -/
theorem transmitDurations : Obligations.TransmitDurations := by
  intro w
  have hones := ones_le w
  have hrule := duration_frameSegments w
  have hframe : duration (frameSegments w) = 17400 + 600 * ones w := by
    rw [hrule]
    dsimp only [Config.tHdr, Config.tGap, Config.tZero, Config.tOne]
    omega
  have hrun : duration (transmitSegments w) = 3 * duration (frameSegments w) + 90000 := duration_transmitSegments w
  have hgrouped : transmitSegments w =
      (frameSegments w ++ [⟨false, 45000⟩]) ++ (frameSegments w ++ [⟨false, 45000⟩]) ++ frameSegments w :=
    congrArg (· ++ frameSegments w) (List.append_assoc ..)
  exact ⟨hrule, hframe, by omega, by omega, by decide, by decide, hrun, by omega, by omega, hgrouped, duration_append ..,
    by omega, by omega⟩

/-! ## One `Emit` -/

/-- IRTX is in progress. -/
structure State.Transmits (s : State) : Prop where
  busy : s.blk.busy = true
  op : s.blk.op = 6

/-- The state in which the transmitter stands at `x` and has sent `l` more; `emit_eq_sent` ties it to `Emit`. -/
def State.sent (x : TxSeq) (l : List Segment) (s : State) : State :=
  { s with blk := { s.blk with tx := x, txTrace := s.blk.txTrace ++ l } }

section
variable {s t : State} {command : BitVec 7} {address : BitVec 5} {w : BitVec 12} {r : BitVec 2} {b : BitVec 4} {e : Bool}

@[simp] theorem sent_tx (x : TxSeq) (l : List Segment) (s : State) : (s.sent x l).blk.tx = x := rfl

theorem emit_eq_sent (level : Bool) (d : Nat) (s : State) :
    emit level d s = s.sent { s.blk.tx with irTxEn := level } [⟨level, d⟩] := rfl

theorem sent_sent (x y : TxSeq) (l m : List Segment) (s : State) : (s.sent x l).sent y m = s.sent y (l ++ m) := by
  simp [State.sent]

theorem sent_nil (s : State) : s.sent s.blk.tx [] = s := by simp [State.sent]

theorem State.Transmits.sent (h : s.Transmits) (x : TxSeq) (l : List Segment) : (s.sent x l).Transmits := ⟨h.busy, h.op⟩

theorem State.Transmits.exec_eq (h : s.Transmits) : exec (.irtx command address) s = irtxStep s := exec_of_own h.busy h.op

theorem irtxStep_hdrOn (hx : s.blk.tx = ⟨w, r, b, .hdrOn, e⟩) :
    irtxStep s = .next (s.sent ⟨w, r, b, .hdrGap, true⟩ [⟨true, Config.tHdr⟩]) := by
  simp only [irtxStep, hx]
  rfl

theorem irtxStep_hdrGap (hx : s.blk.tx = ⟨w, r, b, .hdrGap, e⟩) :
    irtxStep s = .next (s.sent ⟨w, r, 0, .bitOn, false⟩ [⟨false, Config.tGap⟩]) := by
  simp only [irtxStep, hx]
  rfl

theorem irtxStep_bitOn (hx : s.blk.tx = ⟨w, r, b, .bitOn, e⟩) :
    irtxStep s = .next (s.sent ⟨w, r, b, .bitGap, true⟩ [⟨true, bitOnTime (w.getLsbD b.toNat)⟩]) := by
  simp only [irtxStep, hx]
  rfl

/-- The gap after a bit that is not the frame's last (R171). -/
theorem irtxStep_bitGap_more (hx : s.blk.tx = ⟨w, r, b, .bitGap, e⟩) (hmore : b.toNat + 1 < Config.frameBits) :
    irtxStep s = .next (s.sent ⟨w, r, b + 1, .bitOn, false⟩ [⟨false, Config.tGap⟩]) := by
  simp only [irtxStep, hx, if_pos hmore]
  rfl

/-- The gap after the frame's last bit (R171, R172). -/
theorem irtxStep_bitGap_last (hx : s.blk.tx = ⟨w, r, 11#4, .bitGap, e⟩) :
    irtxStep s = .next (frameDone (s.sent ⟨w, r, 11#4, .bitGap, false⟩ [⟨false, Config.tGap⟩])) := by
  have hlast : ¬(11#4).toNat + 1 < Config.frameBits := by decide
  simp only [irtxStep, hx, if_neg hlast, emit_eq_sent]

theorem irtxStep_frameGap (hx : s.blk.tx = ⟨w, r, b, .frameGap, e⟩) :
    irtxStep s = .next (s.sent ⟨w, r, b, .hdrOn, false⟩ [⟨false, Config.tFrameGap⟩]) := by
  simp only [irtxStep, hx]
  rfl

/-- Before the third frame is sent an inter-frame gap is next (R172). -/
theorem frameDone_more (x : TxSeq) (l : List Segment) (hmore : x.rep.toNat + 1 < Config.txRepeats) :
    frameDone (s.sent x l) = s.sent { x with bit := x.bit + 1, rep := x.rep + 1, phase := .frameGap } l := if_pos hmore

/-- After the third frame the operation ends (R172). -/
theorem frameDone_last (x : TxSeq) (l : List Segment) (hlast : x.rep = 2) : frameDone (s.sent x l) =
    (s.sent { x with bit := x.bit + 1, rep := 3, phase := .idle, irTxEn := false } l).done 0 := by
  simp only [frameDone, sent_tx, hlast]
  rfl

/-- Settles O47: a data bit's step by its equation, and the third frame's last gap by that of `frameDone`. -/
theorem irtxEmits : Obligations.IrtxEmits := by
  intro command address s hb ho
  have hrun : s.Transmits := ⟨hb, ho⟩
  refine ⟨fun hp => ?_, fun hp hbit hrep => ?_⟩
  · have hx : s.blk.tx = ⟨s.blk.tx.word, s.blk.tx.rep, s.blk.tx.bit, .bitOn, s.blk.tx.irTxEn⟩ := by rw [← hp]
    exact hrun.exec_eq.trans (irtxStep_bitOn hx)
  · have hx : s.blk.tx = ⟨s.blk.tx.word, 2, 11#4, .bitGap, s.blk.tx.irTxEn⟩ := by
      rw [← hp, ← hrep]
      exact congrArg (fun b => { s.blk.tx with bit := b }) hbit
    rw [hrun.exec_eq, irtxStep_bitGap_last hx, frameDone_last _ _ rfl]
    rfl

/-! ## One frame -/

/-- One step of IRTX as a run. -/
theorem State.Transmits.one (h : s.Transmits) (hs : irtxStep s = .next t) : execTimes 1 (.irtx command address) s = .next t :=
  execTimes_one (h.exec_eq.trans hs)

theorem execTimes_header (h : s.Transmits) (hx : s.blk.tx = ⟨w, r, b, .hdrOn, e⟩) : execTimes 2 (.irtx command address) s =
    .next (s.sent ⟨w, r, 0, .bitOn, false⟩ [⟨true, Config.tHdr⟩, ⟨false, Config.tGap⟩]) := by
  rw [execTimes_add (h.one (irtxStep_hdrOn hx)) 1, (h.sent ..).one (irtxStep_hdrGap rfl), sent_sent]
  rfl

/-- A data bit that is not the frame's last (R171). -/
theorem execTimes_bit (h : s.Transmits) (hx : s.blk.tx = ⟨w, r, b, .bitOn, e⟩) (hmore : b.toNat + 1 < Config.frameBits) :
    execTimes 2 (.irtx command address) s =
      .next (s.sent ⟨w, r, b + 1, .bitOn, false⟩ (bitSegments (w.getLsbD b.toNat))) := by
  rw [execTimes_add (h.one (irtxStep_bitOn hx)) 1, (h.sent ..).one (irtxStep_bitGap_more rfl hmore), sent_sent]
  rfl

/-- The frame's last data bit (R171, R172). -/
theorem execTimes_lastBit (h : s.Transmits) (hx : s.blk.tx = ⟨w, r, 11#4, .bitOn, e⟩) : execTimes 2 (.irtx command address) s =
    .next (frameDone (s.sent ⟨w, r, 11#4, .bitGap, false⟩ (bitSegments (w.getLsbD 11)))) := by
  rw [execTimes_add (h.one (irtxStep_bitOn hx)) 1, (h.sent ..).one (irtxStep_bitGap_last rfl), sent_sent]
  rfl

/-- The first `n` data bits, bit 0 first (R171). -/
theorem execTimes_bits (h : s.Transmits) (hx : s.blk.tx = ⟨w, r, 0, .bitOn, false⟩) (n : Nat) (hn : n < Config.frameBits) :
    execTimes (2 * n) (.irtx command address) s = .next (s.sent ⟨w, r, BitVec.ofNat 4 n, .bitOn, false⟩
      ((List.range n).flatMap fun k => bitSegments (w.getLsbD k))) := by
  induction n with
  | zero => exact congrArg _ ((sent_nil s).symm.trans (by rw [hx]; rfl))
  | succ n ih =>
    have hbit : (BitVec.ofNat 4 n).toNat = n := Nat.mod_eq_of_lt (by simp only [Config.frameBits] at hn; omega)
    rw [Nat.mul_succ, execTimes_add (ih (Nat.lt_of_succ_lt hn)), execTimes_bit (h.sent ..) rfl (hbit.symm ▸ hn), sent_sent, hbit,
      List.range_succ, List.flatMap_append, List.flatMap_singleton, BitVec.ofNat_add]
    rfl

/-- A frame: 26 segments, with the last of which it is done (R171, R172). -/
theorem execTimes_frame (h : s.Transmits) (hx : s.blk.tx = ⟨w, r, b, .hdrOn, e⟩) : execTimes 26 (.irtx command address) s =
    .next (frameDone (s.sent ⟨w, r, 11#4, .bitGap, false⟩ (frameSegments w))) := by
  rw [execTimes_add (execTimes_header h hx) 24, execTimes_add (execTimes_bits (h.sent ..) rfl 11 (by decide)) 2, sent_sent,
    execTimes_lastBit (h.sent ..) rfl, sent_sent]
  rfl

/-- A frame that is not the third, and the inter-frame gap after it (R172). -/
theorem execTimes_frame_gap (h : s.Transmits) (hx : s.blk.tx = ⟨w, r, b, .hdrOn, e⟩) (hmore : r.toNat + 1 < Config.txRepeats) :
    execTimes 27 (.irtx command address) s =
      .next (s.sent ⟨w, r + 1, 12, .hdrOn, false⟩ (frameSegments w ++ [⟨false, Config.tFrameGap⟩])) := by
  rw [execTimes_add (execTimes_frame h hx) 1, frameDone_more _ _ hmore, (h.sent ..).one (irtxStep_frameGap rfl), sent_sent]
  rfl

/-! ## The whole operation -/

/-- Three frames, 80 segments, from the first header to `done` (R172). -/
theorem execTimes_frames (h : s.Transmits) (hx : s.blk.tx = ⟨w, 0, b, .hdrOn, e⟩) : execTimes 80 (.irtx command address) s =
    .next ((s.sent ⟨w, 3, 12, .idle, false⟩ (transmitSegments w)).done 0) := by
  rw [execTimes_add (execTimes_frame_gap h hx (by decide)) 53, execTimes_add (execTimes_frame_gap (h.sent ..) rfl (by decide)) 26,
    sent_sent, execTimes_frame (h.sent ..) rfl, sent_sent, frameDone_last _ _ rfl]
  simp only [transmitSegments, List.append_assoc]
  rfl

theorem frameSegments_length (w : BitVec 12) : (frameSegments w).length = 26 := rfl

theorem transmitSegments_length (w : BitVec 12) : (transmitSegments w).length = 80 := by
  simp [transmitSegments, frameSegments_length]

/-- Settles O46: the acceptance, and then the three frames. -/
theorem irtxTransmits : Obligations.IrtxTransmits := by
  intro command address s hb
  refine ⟨transmitSegments_length _, ?_⟩
  rw [execTimes_accepted (.irtx command address) hb 80, execTimes_frames ⟨rfl, rfl⟩ rfl]
  rfl

end

end Sys2Proof.Machine
end

section
/-! SUPPORT. One tick of IRRX (43_ir_receive.md R190 to R198): the button first, then what a high sample, a low one and a falling edge
do. -/

namespace Sys2Proof.Machine

/-! ## Entry, and the button -/

/-- The tick that finds the flag set (R192). -/
theorem exec_irrx_pressed {s : State} (hb : s.blk.busy = true) (ho : s.blk.op = 7) (hf : s.blk.btnFlag = true) :
    exec .irrx s = .next s.buttonFallback := by
  rw [exec_of_own (i := .irrx) hb ho]
  exact if_pos hf

/-- Settles O49: acceptance loads the receiver alone, and the first tick looks at the flag. -/
theorem irrxEntry : Obligations.IrrxEntry := fun _ hb =>
  ⟨_, exec_of_idle .irrx hb, rfl, rfl, rfl, rfl, rfl, rfl, fun hf => ⟨_, exec_irrx_pressed rfl rfl hf, rfl, rfl⟩⟩

/-- `(BTN_COUNT + 1) mod 128` on 7 bits (R192). -/
theorem nextCount_plusOne (c : BitVec 7) : nextCount .plusOne c = BitVec.ofNat 7 ((c.toNat + 1) % 128) := by
  refine BitVec.eq_of_toNat_eq ?_
  simp [nextCount, BitVec.toNat_add]

/-- The count as the result (R192). -/
theorem zeroExtend_nextCount_plusOne (c : BitVec 7) :
    (nextCount .plusOne c).zeroExtend 16 = BitVec.ofNat 16 ((c.toNat + 1) % 128) := by
  refine BitVec.eq_of_toNat_eq ?_
  simp [nextCount, BitVec.toNat_add]

/-- Settles O50: the tick is the fallback, under each update of the count. -/
theorem irrxFallback : Obligations.IrrxFallback := by
  intro s hb ho hf
  rw [exec_irrx_pressed hb ho hf]
  refine ⟨fun hu => ?_, fun hu => ?_⟩
  · rw [State.buttonFallback, hu, zeroExtend_nextCount_plusOne, nextCount_plusOne]
    rfl
  · rw [State.buttonFallback, hu]
    rfl

/-! ## A sample -/

section
variable (s : State)

theorem onSample_high : onSample true s = s.setRx { s.blk.rx with pulse := countPulse s.blk.rx.pulse } := if_pos rfl

/-- A falling edge takes the pulse away (R194). -/
def State.edge : State := s.setRx { s.blk.rx with pulse := 0 }

variable {s} {l : Nat}

theorem onSample_lowAfterLow (hp : s.blk.rx.pulse = 0) : onSample false s = s := by simp [onSample, hp]

/-- A falling edge (R194). -/
theorem onSample_edge (hp : s.blk.rx.pulse ≠ 0) : onSample false s = classify s.blk.rx.pulse.toNat s.edge :=
  (if_neg Bool.false_ne_true).trans (if_neg hp)

theorem classify_header (hl : s.params.rxHdrMin ≤ l) :
    classify l s = s.setRx { s.blk.rx with hdr := true, bitCnt := 0, value := 0 } := if_pos hl

theorem classify_discarded (hl : l < s.params.rxHdrMin) (hh : s.blk.rx.hdr = false) (hc : s.params.countBeforeHeader = false) :
    classify l s = s := by simp [classify, Nat.not_le.2 hl, hh, hc]

theorem classify_bit (hl : l < s.params.rxHdrMin) (hh : s.blk.rx.hdr = true ∨ s.params.countBeforeHeader = true) :
    classify l s = acceptBit (decide (s.params.rxOneMin ≤ l)) s := by simp [classify, Nat.not_le.2 hl, hh]

/-- RX_BITCNT counts to 12 from 11 alone (R196, R197). -/
theorem bitCnt_succ_eq_twelve {c : BitVec 4} : c + 1 = 12 ↔ c = 11 := BitVec.add_left_inj (y := 11#4) 1#4

theorem acceptBit_more (b : Bool) (hc : s.blk.rx.bitCnt ≠ 11) : acceptBit b s =
    s.setRx { s.blk.rx with value := setValueBit s.blk.rx.value s.blk.rx.bitCnt.toNat b, bitCnt := s.blk.rx.bitCnt + 1 } :=
  if_neg (mt bitCnt_succ_eq_twelve.1 hc)

/-- The twelfth bit ends the operation (R197). -/
theorem acceptBit_last (b : Bool) (hc : s.blk.rx.bitCnt = 11) : acceptBit b s =
    (s.setRx { s.blk.rx with value := setValueBit s.blk.rx.value 11 b, bitCnt := 12 }).done
      ((setValueBit s.blk.rx.value 11 b).zeroExtend 16) := by
  simp only [acceptBit, hc]
  rfl

/-- The bit at `k` is the new one, every other stays (R196). -/
theorem getLsbD_setValueBit (v : BitVec 12) (k : Nat) (b : Bool) {j : Nat} (hj : j < 12) :
    (setValueBit v k b).getLsbD j = if j = k then b else v.getLsbD j := by
  by_cases hjk : j = k
  · subst hjk
    cases b <;> simp [setValueBit, hj]
  · cases b <;> simp [setValueBit, hj, hjk]

end

/-! ## A tick -/

/-- IRRX is in progress, and the button flag is clear. -/
structure State.Receives (s : State) : Prop where
  busy : s.blk.busy = true
  op : s.blk.op = 7
  flag : s.blk.btnFlag = false

section
variable {s u : State} {level : Bool}

/-- Taking a sample leaves the block and the parameters (R191). -/
theorem sampled_blk (hs : s.sampleIr = (level, u)) : u.blk = s.blk := by rw [← sampleIr_blk s, hs]

theorem sampled_params (hs : s.sampleIr = (level, u)) : u.params = s.params := by rw [← sampleIr_params s, hs]

/-- With the flag clear a tick is what its sample does (R191). -/
theorem State.Receives.exec_eq (h : s.Receives) (hs : s.sampleIr = (level, u)) : exec .irrx s = .next (onSample level u) := by
  rw [exec_of_own (i := .irrx) h.busy h.op]
  show irrxStep s = _
  simp [irrxStep, h.flag, hs]

/-- A tick at a falling edge classifies the pulse (R194). -/
theorem State.Receives.exec_edge (h : s.Receives) (hs : s.sampleIr = (false, u)) (hp : s.blk.rx.pulse ≠ 0) :
    exec .irrx s = .next (classify s.blk.rx.pulse.toNat u.edge) := by
  rw [h.exec_eq hs, onSample_edge (by rwa [sampled_blk hs]), sampled_blk hs]

/-- Settles O51: by what a sample does. -/
theorem irrxCountsTheLevel : Obligations.IrrxCountsTheLevel := by
  intro s u hb ho hf
  have h : s.Receives := ⟨hb, ho, hf⟩
  refine ⟨fun hs => ⟨?_, sampled_blk hs⟩, fun hs hp => ⟨?_, sampled_blk hs⟩⟩
  · rw [h.exec_eq hs, onSample_high, ← sampled_blk hs]
    rfl
  · rw [h.exec_eq hs, onSample_lowAfterLow (by rwa [sampled_blk hs])]

/-- Settles O52: the edge classifies the pulse as a header. -/
theorem irrxHeader : Obligations.IrrxHeader := by
  intro s u hb ho hf hs hp hl
  have hl' : u.edge.params.rxHdrMin ≤ s.blk.rx.pulse.toNat := by rwa [← sampled_params hs] at hl
  exact ⟨(State.Receives.exec_edge ⟨hb, ho, hf⟩ hs hp).trans (congrArg _ (classify_header hl')), sampled_blk hs⟩

/-- Settles O53: the edge classifies the pulse, which is discarded, or lands at RX_BITCNT; there the twelfth bit is told from the others. -/
theorem irrxBits : Obligations.IrrxBits := by
  intro s u hb ho hf hs hp hl
  have hblk := sampled_blk hs
  rw [State.Receives.exec_edge ⟨hb, ho, hf⟩ hs hp]
  rw [← sampled_params hs] at hl ⊢
  rw [← hblk] at hb hl ⊢
  refine ⟨rfl, fun hh hc => ?_, fun hh _ => ⟨_, fun k hk => getLsbD_setValueBit _ _ _ hk, ?_⟩⟩
  · rw [classify_discarded (s := u.edge) hl hh hc]
    rfl
  · rw [classify_bit (s := u.edge) hl hh]
    by_cases hc : u.blk.rx.bitCnt = 11
    · rw [acceptBit_last (s := u.edge) _ hc, if_pos hc, if_pos hc, hc]
      rfl
    · rw [acceptBit_more (s := u.edge) _ hc, if_neg hc, if_neg hc, ← hb]
      rfl

end

end Sys2Proof.Machine
end

section
/-! SUPPORT. IRRX over a train of pulses (43_ir_receive.md R193 to R199), sample by sample, pulse by pulse, and from a header to the twelfth
bit. -/

namespace Sys2Proof.Machine

/-! ## The samples to come -/

/-- The state in which the receiver stands at `r` and `l` is what is still to be sampled; `sampleIr_cons` ties it to `SampleIr()`. -/
def State.heard (r : RxSeq) (l : List Bool) (s : State) : State :=
  { s with blk := { s.blk with rx := r }, env := { s.env with irIn := l } }

section
variable {s : State} {level : Bool} {l : List Bool} {r : RxSeq}

theorem sampleIr_cons (hs : s.env.irIn = level :: l) : s.sampleIr = (level, s.heard s.blk.rx l) := by
  unfold State.sampleIr
  rw [hs]
  rfl

/-- Nothing has been heard yet. -/
theorem heard_self (hr : s.blk.rx = r) (hl : s.env.irIn = l) : s.heard r l = s := by
  subst hr hl
  rfl

theorem State.Receives.heard (h : s.Receives) (r : RxSeq) (l : List Bool) : (s.heard r l).Receives := ⟨h.busy, h.op, h.flag⟩

/-! ## A pulse and its gap -/

/-- RX_PULSE after `n` high ticks (R193). -/
def countPulses (n : Nat) (p : BitVec 16) : BitVec 16 := BitVec.ofNat 16 (min (p.toNat + n) Config.rxPulseMax)

theorem toNat_countPulses (n : Nat) (p : BitVec 16) : (countPulses n p).toNat = min (p.toNat + n) Config.rxPulseMax :=
  Nat.mod_eq_of_lt (Nat.lt_succ_of_le (Nat.min_le_right _ _))

theorem countPulses_zero (p : BitVec 16) : countPulses 0 p = p := by
  have hp := p.isLt
  refine BitVec.eq_of_toNat_eq ?_
  rw [toNat_countPulses, Config.rxPulseMax]
  omega

theorem countPulses_countPulse (n : Nat) (p : BitVec 16) : countPulses n (countPulse p) = countPulses (n + 1) p := by
  have hp : (countPulse p).toNat = min (p.toNat + 1) Config.rxPulseMax := toNat_countPulses 1 p
  refine BitVec.eq_of_toNat_eq ?_
  rw [toNat_countPulses, toNat_countPulses, hp]
  omega

/-- High ticks count (R193). -/
theorem execTimes_high (h : s.Receives) (n : Nat) (hs : s.env.irIn = List.replicate n true ++ l) :
    execTimes n .irrx s = .next (s.heard { s.blk.rx with pulse := countPulses n s.blk.rx.pulse } l) := by
  induction n generalizing s with
  | zero =>
    rw [countPulses_zero]
    exact congrArg _ (heard_self rfl hs).symm
  | succ n ih =>
    have htick := h.exec_eq (sampleIr_cons hs)
    rw [onSample_high] at htick
    rw [execTimes_succ htick, ← countPulses_countPulse]
    exact ih (h.heard _ _) rfl

/-- Low ticks after a low one change nothing (R194). -/
theorem execTimes_low (h : s.Receives) (hp : s.blk.rx.pulse = 0) (n : Nat) (hs : s.env.irIn = List.replicate n false ++ l) :
    execTimes n .irrx s = .next (s.heard s.blk.rx l) := by
  induction n generalizing s with
  | zero => exact congrArg _ (heard_self rfl hs).symm
  | succ n ih =>
    have hlow : onSample false (s.heard s.blk.rx (List.replicate n false ++ l)) = s.heard s.blk.rx (List.replicate n false ++ l) :=
      onSample_lowAfterLow hp
    rw [execTimes_succ ((h.exec_eq (sampleIr_cons hs)).trans (congrArg _ hlow))]
    exact ih (h.heard _ _) hp rfl

/-- A pulse and its falling edge, which classifies it (R193, R194). -/
theorem execTimes_pulse (h : s.Receives) (hr : s.blk.rx = r) (hp : r.pulse = 0) {n : Nat} (hn : 1 ≤ n)
    (hs : s.env.irIn = List.replicate n true ++ false :: l) :
    execTimes (n + 1) .irrx s = .next (classify (min n Config.rxPulseMax) (s.heard r l)) := by
  subst hr
  have hcount := toNat_countPulses n s.blk.rx.pulse
  have hzero : s.blk.rx.pulse.toNat = 0 := by rw [hp]; rfl
  rw [hzero, Nat.zero_add] at hcount
  have hne : countPulses n s.blk.rx.pulse ≠ 0 := by
    intro h0
    rw [h0, Config.rxPulseMax] at hcount
    have : (0 : BitVec 16).toNat = 0 := rfl
    omega
  have hedge := (h.heard { s.blk.rx with pulse := countPulses n s.blk.rx.pulse } (false :: l)).exec_edge (sampleIr_cons rfl) hne
  rw [execTimes_add (execTimes_high h n hs), execTimes_one hedge, ← hcount, State.edge]
  simp only [State.heard, State.setRx, ← hp]

theorem replicate_false_eq_cons {n : Nat} (hn : 1 ≤ n) : List.replicate n false = false :: List.replicate (n - 1) false := by
  obtain ⟨m, rfl⟩ := Nat.exists_eq_add_of_le' hn
  rfl

theorem pulseTrain_cons (p : Nat × Nat) (ps : List (Nat × Nat)) (hp : 1 ≤ p.2) :
    pulseTrain (p :: ps) = List.replicate p.1 true ++ false :: (List.replicate (p.2 - 1) false ++ pulseTrain ps) := by
  rw [pulseTrain, List.flatMap_cons, replicate_false_eq_cons hp, List.append_assoc, List.cons_append]
  rfl

theorem length_pulseTrain_cons (p : Nat × Nat) (ps : List (Nat × Nat)) :
    (pulseTrain (p :: ps)).length = p.1 + p.2 + (pulseTrain ps).length := by
  simp [pulseTrain, Nat.add_assoc]

/-- A pulse with which the operation goes on, and the gap after it: as many ticks as they have samples. -/
theorem execTimes_pulse_gap (h : s.Receives) (hr : s.blk.rx = r) (hr0 : r.pulse = 0) {q : RxSeq} (hq0 : q.pulse = 0) {p : Nat × Nat}
    {ps : List (Nat × Nat)} (hp : 1 ≤ p.1 ∧ 1 ≤ p.2)
    (hclass : ∀ m, classify (min p.1 Config.rxPulseMax) (s.heard r m) = s.heard q m)
    (hs : s.env.irIn = pulseTrain (p :: ps) ++ l) : execTimes (p.1 + p.2) .irrx s = .next (s.heard q (pulseTrain ps ++ l)) := by
  obtain ⟨hp1, hp2⟩ := hp
  rw [pulseTrain_cons p ps hp2, List.append_assoc, List.cons_append, List.append_assoc] at hs
  have hpulse := execTimes_pulse h hr hr0 hp1 hs
  rw [hclass] at hpulse
  have hticks : p.1 + p.2 = p.1 + 1 + (p.2 - 1) := by omega
  rw [hticks, execTimes_add hpulse]
  exact execTimes_low (h.heard _ _) hq0 _ rfl

/-! ## Twelve bits -/

/-- RX_VALUE after the pulses that are left, the first of which is bit `k` (R196); `execTimes_pulseBits` ties it to the receiver. -/
def spell (oneMin : Nat) : BitVec 12 → Nat → List (Nat × Nat) → BitVec 12
  | v, _, [] => v
  | v, k, p :: ps => spell oneMin (setValueBit v k (decide (oneMin ≤ p.1))) (k + 1) ps

/-- Each pulse spells the bit at its own place, and the places before and after them stay. -/
theorem getLsbD_spell (oneMin : Nat) (v : BitVec 12) (k : Nat) (ps : List (Nat × Nat)) {j : Nat} (hj : j < 12) :
    (spell oneMin v k ps).getLsbD j =
      if k ≤ j ∧ j < k + ps.length then decide (oneMin ≤ (ps.map Prod.fst).getD (j - k) 0) else v.getLsbD j := by
  induction ps generalizing v k with
  | nil =>
    have hno : ¬(k ≤ j ∧ j < k + ([] : List (Nat × Nat)).length) := by simp
    rw [if_neg hno]
    rfl
  | cons p ps ih =>
    rw [spell, ih, getLsbD_setValueBit _ _ _ hj, List.length_cons]
    rcases Nat.lt_trichotomy j k with hlt | rfl | hgt
    · rw [if_neg (by omega), if_neg (by omega), if_neg (by omega)]
    · rw [if_neg (by omega), if_pos rfl, if_pos (by omega), Nat.sub_self]
      rfl
    · obtain ⟨d, rfl⟩ := Nat.exists_eq_add_of_lt hgt
      have hd : k + d + 1 - k = d + 1 := by omega
      have hd' : k + d + 1 - (k + 1) = d := by omega
      have hplace : (k + 1 ≤ k + d + 1 ∧ k + d + 1 < k + 1 + ps.length) ↔
          (k ≤ k + d + 1 ∧ k + d + 1 < k + (ps.length + 1)) := by omega
      rw [hd, hd', if_neg hgt.ne', List.map_cons, List.getD_cons_succ]
      simp only [hplace]

/-- The gap after the last pulse of a train. -/
def lastGap : List (Nat × Nat) → Nat
  | [] => 0
  | [p] => p.2
  | _ :: q :: rest => lastGap (q :: rest)

theorem lastGap_eq_getD (ps : List (Nat × Nat)) : lastGap ps = (ps.map Prod.snd).getD (ps.length - 1) 0 := by
  induction ps using lastGap.induct with
  | case1 => rfl
  | case2 p => rfl
  | case3 p q rest ih =>
    rw [lastGap, ih]
    rfl

/-- A pulse that counts as a bit after a header, and has a gap (R194, R196). -/
def IsBit (P : Params) (p : Nat × Nat) : Prop := 1 ≤ p.1 ∧ p.1 < P.rxHdrMin ∧ 1 ≤ p.2

/-- The end of IRRX with the value `v`, `l` being what is still to be sampled (R197). -/
def State.decoded (v : BitVec 12) (l : List Bool) (s : State) : State := (s.heard ⟨0, 12, v, true⟩ l).done (v.zeroExtend 16)

section
variable {c : BitVec 4} {v : BitVec 12} {p : Nat × Nat}

/-- A bit's pulse is short of saturation (R193, R202). -/
theorem classify_heard_bit (hmax : s.params.rxHdrMin ≤ Config.rxPulseMax) (hp : IsBit s.params p) (m : List Bool) :
    classify (min p.1 Config.rxPulseMax) (s.heard ⟨0, c, v, true⟩ m) =
      acceptBit (decide (s.params.rxOneMin ≤ p.1)) (s.heard ⟨0, c, v, true⟩ m) := by
  obtain ⟨_, hshort, _⟩ := hp
  rw [Nat.min_eq_left (hshort.le.trans hmax)]
  exact classify_bit hshort (.inl rfl)

/-- From RX_BITCNT on, the pulses that are left of the twelve (R196, R197). -/
theorem execTimes_pulseBits (ps : List (Nat × Nat)) (h : s.Receives) (hr : s.blk.rx = ⟨0, c, v, true⟩)
    (hs : s.env.irIn = pulseTrain ps ++ l) (hne : ps ≠ []) (hc : c.toNat + ps.length = 12)
    (hmax : s.params.rxHdrMin ≤ Config.rxPulseMax) (hps : ∀ p ∈ ps, IsBit s.params p) :
    execTimes (ticksToLastEdge ps) .irrx s =
      .next (s.decoded (spell s.params.rxOneMin v c.toNat ps) (List.replicate (lastGap ps - 1) false ++ l)) := by
  induction ps using ticksToLastEdge.induct generalizing s c v with
  | case1 => exact absurd rfl hne
  | case2 p =>
    have hbit := hps p List.mem_cons_self
    have ⟨hp1, _, hp2⟩ := hbit
    have hc11 : c = 11 := BitVec.eq_of_toNat_eq (Nat.succ_injective hc)
    subst hc11
    rw [pulseTrain_cons p [] hp2, List.append_assoc, List.cons_append, List.append_assoc] at hs
    rw [ticksToLastEdge, execTimes_pulse h hr rfl hp1 hs, classify_heard_bit hmax hbit, acceptBit_last _ rfl]
    rfl
  | case3 p q rest ih =>
    have hbit := hps p List.mem_cons_self
    have ⟨hp1, _, hp2⟩ := hbit
    rw [List.length_cons, List.length_cons] at hc
    have hmore : c ≠ 11 := by
      rintro rfl
      have : (11 : BitVec 4).toNat = 11 := rfl
      omega
    have hnext : (c + 1).toNat = c.toNat + 1 := by
      rw [BitVec.toNat_add]
      exact Nat.mod_eq_of_lt (show c.toNat + 1 < 16 by omega)
    have hclass : ∀ m, classify (min p.1 Config.rxPulseMax) (s.heard ⟨0, c, v, true⟩ m) =
        s.heard ⟨0, c + 1, setValueBit v c.toNat (decide (s.params.rxOneMin ≤ p.1)), true⟩ m := by
      intro m
      rw [classify_heard_bit hmax hbit, acceptBit_more _ hmore]
      rfl
    rw [ticksToLastEdge, execTimes_add (execTimes_pulse_gap h hr rfl rfl ⟨hp1, hp2⟩ hclass hs),
      ih (h.heard _ _) rfl rfl (List.cons_ne_nil _ _) (by rw [hnext, List.length_cons]; omega) hmax
        fun x hx => hps x (List.mem_cons_of_mem _ hx), hnext]
    rfl

end

/-! ## From the header to the twelfth bit -/

/-- A train that IRRX decodes: a header, and twelve bits (R195 to R197). -/
structure Decodes (P : Params) (header : Nat × Nat) (bits : List (Nat × Nat)) : Prop where
  max : P.rxHdrMin ≤ Config.rxPulseMax
  pulse : 1 ≤ header.1 ∧ P.rxHdrMin ≤ header.1
  gap : 1 ≤ header.2
  count : bits.length = 12
  isBit : ∀ p ∈ bits, IsBit P p

/-- Whatever the receiver had heard before, with no pulse begun, a header and twelve bits give the value they spell. -/
theorem execTimes_train {header : Nat × Nat} {bits : List (Nat × Nat)} (hd : Decodes s.params header bits) (h : s.Receives)
    (hr : s.blk.rx.pulse = 0) (hs : s.env.irIn = pulseTrain (header :: bits) ++ l) :
    execTimes (ticksToLastEdge (header :: bits)) .irrx s =
      .next (s.decoded (spell s.params.rxOneMin 0 0 bits) (List.replicate (lastGap bits - 1) false ++ l)) := by
  obtain ⟨hpulse, hlong⟩ := hd.pulse
  have hclass : ∀ m, classify (min header.1 Config.rxPulseMax) (s.heard s.blk.rx m) = s.heard ⟨0, 0, 0, true⟩ m := by
    intro m
    rw [classify_header (s := s.heard s.blk.rx m) (Nat.le_min.2 ⟨hlong, hd.max⟩), ← hr]
    rfl
  have hcount := hd.count
  cases bits with
  | nil => exact absurd hcount (by decide)
  | cons p ps =>
    rw [ticksToLastEdge, execTimes_add (execTimes_pulse_gap h rfl hr rfl ⟨hpulse, hd.gap⟩ hclass hs),
      execTimes_pulseBits (c := 0) _ (h.heard _ _) rfl rfl (List.cons_ne_nil _ _) ((Nat.zero_add _).trans hcount) hd.max hd.isBit]
    rfl

/-- The bits of the value (R196). -/
theorem getLsbD_spell_twelve (oneMin : Nat) {bits : List (Nat × Nat)} (hcount : bits.length = 12) {k : Nat} (hk : k < 12) :
    (spell oneMin 0 0 bits).getLsbD k = decide (oneMin ≤ (bits.map Prod.fst).getD k 0) := by
  rw [getLsbD_spell oneMin 0 0 bits hk, if_pos ⟨Nat.zero_le _, by omega⟩, Nat.sub_zero]

/-- From an idle block: the acceptance leaves a receiver that has heard nothing (R190). -/
theorem accepted_receives (hf : s.blk.btnFlag = false) : (s.accepted .irrx).Receives := ⟨rfl, rfl, hf⟩

end

/-- Settles O54: the acceptance, and then the header and the twelve bits. -/
theorem irrxDecodesPulses : Obligations.IrrxDecodesPulses := by
  intro header bits later s hb hf hcount hpulse hlong hmax hgap hbits hs
  have hd : Decodes s.params header bits := ⟨hmax, ⟨hpulse, hlong⟩, hgap, hcount, hbits⟩
  refine ⟨_, (execTimes_accepted .irrx hb _).trans (execTimes_train hd (accepted_receives hf) rfl hs), rfl, fun k => ?_, ?_,
    hf, rfl, rfl, rfl⟩
  · show ((spell s.params.rxOneMin 0 0 bits).zeroExtend 16).getLsbD k = _
    rw [BitVec.getLsbD_setWidth]
    by_cases hk : k < 12
    · simp only [getLsbD_spell_twelve _ hcount hk, hk, Nat.lt_trans hk (show 12 < 16 by decide), decide_true, Bool.true_and, and_true]
    · simp [BitVec.getLsbD_of_ge _ _ (Nat.not_lt.1 hk), hk]
  · have hlt : 11 < bits.length := by omega
    have hlast : lastGap bits = (bits.map Prod.snd).getD 11 0 := by rw [lastGap_eq_getD, hcount]
    have hpos : 1 ≤ (bits.map Prod.snd).getD 11 0 := by
      simpa [hlt] using (hbits _ (List.getElem_mem hlt)).2.2
    show (List.replicate (lastGap bits - 1) false ++ later).length + 1 = _
    rw [List.length_append, List.length_replicate, hlast]
    omega

end Sys2Proof.Machine
end

section
/-! SUPPORT. The samples of an IRTX trace as a train of pulses (43_ir_receive.md R201, R202), and IRRX over them (R203). -/

namespace Sys2Proof.Machine

/-! ## Sampling a segment -/

section
variable {T p d n : Nat}

/-- The ticks that fall into a segment, and the phase at which the next one meets what follows (R201). -/
theorem exists_ticks (hp : p < T) (d : Nat) : ∃ c q, p + c * T = d + q ∧ q < T := by
  have hT : 0 < T := Nat.zero_lt_of_lt hp
  have hdiv := Nat.div_add_mod' (d + (T - 1 - p)) T
  have hmod := Nat.mod_lt (d + (T - 1 - p)) hT
  exact ⟨(d + (T - 1 - p)) / T, T - 1 - (d + (T - 1 - p)) % T, by omega, by omega⟩

/-- A segment gives its level at each of its ticks (R201). -/
theorem samples_segment {c q : Nat} (hc : p + c * T = d + q) (hq : q < T) (level : Bool) (rest : List Segment) (m : Nat) :
    samples (⟨level, d⟩ :: rest) T p (c + m) = List.replicate c level ++ samples rest T q m := by
  rw [samples, List.range_add, List.map_append, List.map_map]
  refine congrArg₂ (· ++ ·) (List.eq_replicate_iff.2 ⟨by simp, fun b hb => ?_⟩) (List.map_congr_left fun i _ => ?_)
  · obtain ⟨i, hi, rfl⟩ := List.mem_map.1 hb
    have hstep : (i + 1) * T ≤ c * T := Nat.mul_le_mul_right T (List.mem_range.1 hi)
    rw [Nat.succ_mul] at hstep
    exact if_pos (show p + i * T < d by omega)
  · have hlate : p + (c + i) * T = d + (q + i * T) := by rw [Nat.add_mul]; omega
    show levelAt _ (p + (c + i) * T) = _
    rw [hlate, levelAt, if_neg (Nat.not_lt.2 (Nat.le_add_right _ _)), Nat.add_sub_cancel_left]

/-- A duration of `d` microseconds takes `c` ticks, its start and its end at whatever phase (R202). -/
def Lasts (T d c : Nat) : Prop := d / T ≤ c ∧ c ≤ ceilDiv d T

theorem lasts_of_phases {c q : Nat} (hp : p < T) (hc : p + c * T = d + q) (hq : q < T) : Lasts T d c := by
  have hT : 0 < T := Nat.zero_lt_of_lt hp
  refine ⟨Nat.lt_succ_iff.1 ((Nat.div_lt_iff_lt_mul hT).2 ?_), (Nat.le_div_iff_mul_le hT).2 (by omega)⟩
  rw [Nat.succ_mul]
  omega

/-! ## Sampling pulses -/

/-- High segments, each with the low one after it, as (pulse, gap) durations; `pulseTrain` is their counterpart in ticks. -/
def pulseSegments (ds : List (Nat × Nat)) : List Segment := ds.flatMap fun d => [⟨true, d.1⟩, ⟨false, d.2⟩]

/-- The segments' samples are a train of as many pulses, each of a length its duration allows; the train ends where the segments do
(R201, R202). -/
theorem exists_train_of_samples (hp : p < T) (ds : List (Nat × Nat)) (rest : List Segment)
    (hn : duration (pulseSegments ds) ≤ p + n * T) :
    ∃ ps l, samples (pulseSegments ds ++ rest) T p n = pulseTrain ps ++ l ∧ (pulseTrain ps).length ≤ n ∧
      List.Forall₂ (fun d c => Lasts T d.1 c.1 ∧ Lasts T d.2 c.2) ds ps := by
  induction ds generalizing p n with
  | nil => exact ⟨[], _, rfl, Nat.zero_le _, .nil⟩
  | cons d ds ih =>
    obtain ⟨c, q, hc, hq⟩ := exists_ticks hp d.1
    obtain ⟨g, r, hg, hr⟩ := exists_ticks hq d.2
    have hdur : duration (pulseSegments (d :: ds)) = d.1 + (d.2 + duration (pulseSegments ds)) := rfl
    rw [hdur] at hn
    have hcg : c + g ≤ n := by
      refine Nat.lt_succ_iff.1 (Nat.lt_of_mul_lt_mul_right (a := T) ?_)
      rw [Nat.add_mul, Nat.succ_mul]
      omega
    obtain ⟨m, rfl⟩ := Nat.exists_eq_add_of_le hcg
    rw [Nat.add_mul, Nat.add_mul] at hn
    obtain ⟨ps, l, hl, hlen, hps⟩ := ih hr (n := m) (by omega)
    refine ⟨(c, g) :: ps, l, ?_, ?_, .cons ⟨lasts_of_phases hp hc hq, lasts_of_phases hq hg hr⟩ hps⟩
    · show samples (⟨true, d.1⟩ :: ⟨false, d.2⟩ :: (pulseSegments ds ++ rest)) T p (c + g + m) =
        List.replicate c true ++ List.replicate g false ++ pulseTrain ps ++ l
      rw [Nat.add_assoc, samples_segment hc hq, samples_segment hg hr, hl]
      simp only [List.append_assoc]
    · rw [length_pulseTrain_cons]
      exact Nat.add_le_add_left hlen _

end

/-! ## A frame -/

/-- The pulses of `SendFrame(W)`, with their gaps (R171). -/
def framePulses (w : BitVec 12) : List (Nat × Nat) :=
  (Config.tHdr, Config.tGap) :: (List.range Config.frameBits).map fun k => (bitOnTime (w.getLsbD k), Config.tGap)

theorem pulseSegments_framePulses (w : BitVec 12) : pulseSegments (framePulses w) = frameSegments w := rfl

/-- A train that a frame's samples can be (R202). -/
structure FrameTrain (T : Nat) (w : BitVec 12) (header : Nat × Nat) (bits : List (Nat × Nat)) : Prop where
  header : Lasts T Config.tHdr header.1 ∧ Lasts T Config.tGap header.2
  count : bits.length = Config.frameBits
  bit : ∀ (k : Nat) (hk : k < bits.length), Lasts T (bitOnTime (w.getLsbD k)) bits[k].1 ∧ Lasts T Config.tGap bits[k].2

/-- The samples of a trace begin with those of its first frame. -/
theorem exists_frameTrain {T p n : Nat} (hp : p < T) (w : BitVec 12) (hn : duration (frameSegments w) ≤ n * T) :
    ∃ header bits l, samples (transmitSegments w) T p n = pulseTrain (header :: bits) ++ l ∧
      (pulseTrain (header :: bits)).length ≤ n ∧ FrameTrain T w header bits := by
  obtain ⟨ps, l, hl, hlen, hps⟩ := exists_train_of_samples hp (framePulses w)
    ([⟨false, Config.tFrameGap⟩] ++ frameSegments w ++ [⟨false, Config.tFrameGap⟩] ++ frameSegments w)
    (hn.trans (Nat.le_add_left _ _))
  obtain ⟨header, bits, hheader, hbits, rfl⟩ := List.forall₂_cons_left_iff.1 hps
  obtain ⟨hcount, hbit⟩ := List.forall₂_iff_get.1 (List.forall₂_map_left_iff.1 hbits)
  rw [List.length_range] at hcount
  refine ⟨header, bits, l, ?_, hlen, hheader, hcount.symm, fun k hk => ?_⟩
  · rw [← hl, pulseSegments_framePulses]
    simp only [transmitSegments, List.append_assoc]
  · simpa using hbit k (by rw [List.length_range]; omega) hk

/-! ## Admissible thresholds -/

/-- The constraints of R202. -/
structure Admissible (P : Params) : Prop where
  zero : 1 ≤ Config.tZero / P.tRxTick
  gap : 1 ≤ Config.tGap / P.tRxTick
  zero_lt_one : ceilDiv Config.tZero P.tRxTick < P.rxOneMin
  one : P.rxOneMin ≤ Config.tOne / P.tRxTick
  one_lt_header : ceilDiv Config.tOne P.tRxTick < P.rxHdrMin
  header : P.rxHdrMin ≤ Config.tHdr / P.tRxTick
  max : P.rxHdrMin ≤ Config.rxPulseMax

theorem rxAdmissible_iff (P : Params) : rxAdmissible P = true ↔ Admissible P := by
  simp only [rxAdmissible, Bool.and_eq_true, decide_eq_true_eq]
  exact ⟨fun ⟨⟨⟨⟨⟨⟨h1, h2⟩, h3⟩, h4⟩, h5⟩, h6⟩, h7⟩ => ⟨h1, h2, h3, h4, h5, h6, h7⟩,
    fun h => ⟨⟨⟨⟨⟨⟨h.zero, h.gap⟩, h.zero_lt_one⟩, h.one⟩, h.one_lt_header⟩, h.header⟩, h.max⟩⟩

section
variable {P : Params} {w : BitVec 12} {header : Nat × Nat} {bits : List (Nat × Nat)} {b : Bool} {c : Nat}

theorem tZero_le_bitOnTime (b : Bool) : Config.tZero ≤ bitOnTime b := by cases b <;> decide

theorem bitOnTime_le_tOne (b : Bool) : bitOnTime b ≤ Config.tOne := by cases b <;> decide

theorem ceilDiv_mono {d e : Nat} (h : d ≤ e) (T : Nat) : ceilDiv d T ≤ ceilDiv e T :=
  Nat.div_le_div_right (Nat.sub_le_sub_right (Nat.add_le_add_right h T) 1)

/-- A data bit's pulse is seen, and is no header (R202). -/
theorem Admissible.isBit (ha : Admissible P) (hc : Lasts P.tRxTick (bitOnTime b) c) : 1 ≤ c ∧ c < P.rxHdrMin := by
  obtain ⟨hlow, hhigh⟩ := hc
  exact ⟨(ha.zero.trans (Nat.div_le_div_right (tZero_le_bitOnTime b))).trans hlow,
    (hhigh.trans (ceilDiv_mono (bitOnTime_le_tOne b) _)).trans_lt ha.one_lt_header⟩

/-- RX_ONE_MIN tells the ones from the zeros (R202). -/
theorem Admissible.one_iff (ha : Admissible P) (hc : Lasts P.tRxTick (bitOnTime b) c) : decide (P.rxOneMin ≤ c) = b := by
  obtain ⟨hlow, hhigh⟩ := hc
  cases b with
  | false => exact decide_eq_false (Nat.not_le.2 (hhigh.trans_lt ha.zero_lt_one))
  | true => exact decide_eq_true (ha.one.trans hlow)

/-- IRRX decodes a frame's samples (R202). -/
theorem FrameTrain.decodes (hf : FrameTrain P.tRxTick w header bits) (ha : Admissible P) : Decodes P header bits := by
  have hlong : P.rxHdrMin ≤ header.1 := ha.header.trans hf.header.1.1
  refine ⟨ha.max, ⟨?_, hlong⟩, ha.gap.trans hf.header.2.1, hf.count, fun p hp => ?_⟩
  · have hpos := ha.one_lt_header
    omega
  · obtain ⟨k, hk, rfl⟩ := List.getElem_of_mem hp
    obtain ⟨hon, hoff⟩ := hf.bit k hk
    obtain ⟨hseen, hshort⟩ := ha.isBit hon
    exact ⟨hseen, hshort, ha.gap.trans hoff.1⟩

/-- And what they spell is the frame's word (R203). -/
theorem FrameTrain.spell_eq (hf : FrameTrain P.tRxTick w header bits) (ha : Admissible P) : spell P.rxOneMin 0 0 bits = w := by
  refine BitVec.eq_of_getLsbD_eq fun k hk => ?_
  have hlt : k < bits.length := by rw [hf.count]; exact hk
  rw [getLsbD_spell_twelve _ hf.count hk, List.getD_eq_getElem _ _ (by simpa using hlt), List.getElem_map]
  exact ha.one_iff (hf.bit k hlt).1

/-- The falling edge of a train's last pulse comes with its last gap. -/
theorem ticksToLastEdge_le (ps : List (Nat × Nat)) (hps : ∀ p ∈ ps, 1 ≤ p.2) : ticksToLastEdge ps ≤ (pulseTrain ps).length := by
  induction ps using ticksToLastEdge.induct with
  | case1 => exact Nat.zero_le _
  | case2 p =>
    have hgap := hps p List.mem_cons_self
    rw [ticksToLastEdge, length_pulseTrain_cons]
    omega
  | case3 p q rest ih =>
    rw [ticksToLastEdge, length_pulseTrain_cons]
    exact Nat.add_le_add_left (ih fun x hx => hps x (List.mem_cons_of_mem _ hx)) _

end

/-- Settles O55: the acceptance, the low ticks before the trace, and the pulses of its first frame. -/
theorem irRoundTrip : Obligations.IrRoundTrip := by
  intro command address phase z n later s hb hf _ hadm hphase hn hs
  have ha := (rxAdmissible_iff _).1 hadm
  obtain ⟨header, bits, l, hl, hlen, hframe⟩ := exists_frameTrain hphase (frameWord command address) hn
  have hd := hframe.decodes ha
  have hrun := accepted_receives hf
  rw [hl, List.append_assoc, List.append_assoc] at hs
  have hquiet := (execTimes_accepted .irrx hb z).trans (execTimes_low hrun rfl z hs)
  refine ⟨ticksToLastEdge (header :: bits), _, (execTimes_add hquiet _).trans (execTimes_train hd (hrun.heard _ _) rfl rfl),
    (ticksToLastEdge_le _ ?_).trans hlen, rfl, ?_⟩
  · exact List.forall_mem_cons.2 ⟨hd.gap, fun p hp => (hd.isBit p hp).2.2⟩
  · exact congrArg (BitVec.zeroExtend 16) (hframe.spell_eq ha)

end Sys2Proof.Machine
end


section
/-! SUPPORT. What a busy block takes of the host, the two answers to a word at CMD, and that no step from a coherent state stops
(60_exceptions.md R222, R228, R230). -/

namespace Sys2Proof.Machine

variable {s : State}

/-! ## A write of the host -/

/-- A busy block ignores every write but one to BTN (R230, R255). -/
theorem hostWrite_of_busy {num : Byte} (hb : s.blk.busy = true) (h4 : num ≠ 4) (data : Word) : hostWrite num data s = .next s := by
  by_cases h0 : num = 0
  · simp [hostWrite, h0, cmdWrite, hb]
  · rw [hostWrite_of_ne_zero h0]
    rcases regWrite_cases num data s with ⟨h, _⟩ | ⟨_, i, _, hi, _⟩ | ⟨_, _, hw⟩
    · exact absurd h h4
    · exact absurd (hi.symm.trans hb) (by decide)
    · rw [hw]

/-- A write to BTN, whatever is in progress (R21, R26). -/
theorem hostWrite_btn (data : Word) (s : State) :
    hostWrite 4 data s = .next { s with blk.btnFlag := s.blk.btnFlag && !data.getLsbD 0 } := (hostWrites s data).2.1

/-- A legal word at CMD of an idle block is accepted (R23, R100). -/
theorem hostWrite_legal {w : Word} {i : Instr} (hb : s.blk.busy = false) (hd : decode w = .ok i) :
    hostWrite 0 w s = .next (loadsOf i (s.accept i.opcode)) := by
  rw [← exec_of_idle i hb]
  simp [hostWrite, cmdWrite, hb, hd]

/-- An illegal word at CMD of an idle block raises IllegalCommand (R108, R222). -/
theorem hostWrite_illegal {w : Word} {e : DecodeError} (hb : s.blk.busy = false) (hd : decode w = .error e) :
    hostWrite 0 w s = .next s.raiseIllegal := by
  simp [hostWrite, cmdWrite, hb, hd]

/-- No write of the host stops: it accepts a command at most, and no engine moves in it (R228, R266). -/
theorem hostWrite_completes (num : Byte) (data : Word) (s : State) : ∃ t, hostWrite num data s = .next t := by
  by_cases h0 : num = 0
  · subst h0
    cases hb : s.blk.busy with
    | true => exact ⟨_, hostWrite_of_busy hb (by decide) data⟩
    | false =>
      cases hd : decode data with
      | ok i => exact ⟨_, hostWrite_legal hb hd⟩
      | error e => exact ⟨_, hostWrite_illegal hb hd⟩
  · exact ⟨_, hostWrite_of_ne_zero h0 data s⟩

/-- Settles O9: the busy block drops the write, and `exec` of another command is no step of the one in progress. -/
theorem busyBlockTakesNothing : Obligations.BusyBlockTakesNothing := fun s hb =>
  ⟨hostWrite_of_busy hb (by decide), fun _ w hn => hostWrite_of_busy hb (fun h4 => by simp [h4] at hn) w, fun _ ho => exec_of_other hb ho⟩

/-- Settles O10, by what the decoder answers to the word. -/
theorem illegalWordSetsIll : Obligations.IllegalWordSetsIll := by
  refine ⟨fun s w hb hnone => ?_, fun s w i hb hd => ?_⟩
  · cases hd : decode w with
    | ok i => exact absurd hd (hnone i)
    | error e => exact hostWrite_illegal hb hd
  · obtain ⟨e, x, r, ht, _⟩ := loadsOf_spec i s
    exact ⟨_, hostWrite_legal hb hd, by rw [ht], by rw [ht], by rw [ht]⟩

/-! ## A step of the host -/

/-- The host never stops. -/
theorem hostStep_completes (s : State) : ∃ t, hostStep s = .next t := by
  unfold hostStep
  split
  case h_1 => exact ⟨_, rfl⟩
  case h_2 num data rest _ => exact hostWrite_completes num data _
  case h_3 => exact ⟨_, rfl⟩
  case h_4 => exact ⟨_, rfl⟩

/-- Settles O14, access by access: a read changes what surrounds the block alone, and of the writes only BTN's is taken. -/
theorem hostCannotDisturbAnEngine : Obligations.HostCannotDisturbAnEngine := by
  intro s hb
  unfold hostStep
  split
  case h_1 => exact ⟨s, rfl, .inl rfl, rfl, rfl, rfl⟩
  case h_2 num data rest _ =>
    by_cases h4 : num = 4
    · subst h4
      refine ⟨_, hostWrite_btn data _, ?_, rfl, rfl, rfl⟩
      cases data.getLsbD 0 with
      | true => exact .inr (by simp)
      | false => exact .inl (by simp)
    · exact ⟨s.setEnv { s.env with prog := rest }, hostWrite_of_busy (by simpa using hb) h4 data, .inl rfl, rfl, rfl, rfl⟩
  case h_3 => exact ⟨_, rfl, .inl (by simp), by simp, by simp, by simp⟩
  case h_4 => exact ⟨_, rfl, .inl (by simp [hb]), by simp [hb], by simp [hb], by simp [hb]⟩

/-! ## No engine stops -/

/-- Outside the data of a write a start condition meets no open latch (R76; log 14). -/
theorem State.Coherent.closed (h : s.Coherent) (hp : s.blk.ee.phase ≠ .tData ∧ s.blk.ee.phase ≠ .tStop) (b : Bank) :
    bankOpenLatch (bankAt s.banks b) = false := (h.fits b).closed (.inl hp)

/-- A read in a coherent state stops at no phase, if its operation has a step at IDLE and a byte to come at the data (R132). -/
theorem memReadStep_completes {n i : Nat} {keep : Byte → State → State} {finish : State → State} {idle : Result} (h : s.Coherent)
    (hidle : s.blk.ee.phase = .idle → ∃ t, idle = .next t) (hdata : s.blk.ee.phase = .tData → i < n) :
    ∃ t, memReadStep n i keep finish idle s = .next t := by
  cases hp : s.blk.ee.phase <;> simp only [memReadStep, hp]
  case idle => exact hidle hp
  case pollStart => exact startPhase_completes (h.closed (by simp [hp]))
  case tStart => exact startPhase_completes (h.closed (by simp [hp]))
  case tRstart => exact startPhase_completes (h.closed (by simp [hp]))
  case tData =>
    rw [if_pos (hdata hp)]
    split <;> exact ⟨_, rfl⟩
  all_goals exact ⟨_, rfl⟩

/-- A write in a coherent state stops at no phase that a write has, if its operation has a step at IDLE (R150). -/
theorem memWriteStep_completes {op : BitVec 3} {chunk : Nat} {datum : State → Byte × State} {finish : State → State} {idle : Result}
    (h : s.Coherent) (hst : s.blk.ee.Stands op) (ho : op = 4 ∨ op = 5) (hidle : s.blk.ee.phase = .idle → ∃ t, idle = .next t) :
    ∃ t, memWriteStep chunk datum finish idle s = .next t := by
  obtain ⟨hrstart, hctrlR, _⟩ := hst.writePhase ho
  cases hp : s.blk.ee.phase <;> simp only [memWriteStep, hp]
  case idle => exact hidle hp
  case pollStart => exact startPhase_completes (h.closed (by simp [hp]))
  case tStart => exact startPhase_completes (h.closed (by simp [hp]))
  case tRstart => exact absurd hp hrstart
  case tCtrlR => exact absurd hp hctrlR
  case tData =>
    rw [if_neg (hst.chunk_ne_zero ho (by simp [hp]))]
    exact ⟨_, rfl⟩
  all_goals exact ⟨_, rfl⟩

/-- A block command at IDLE is one of no bytes, and ends (R134, R153). -/
theorem emptyBlock_completes (hl : s.blk.ee.len = 0) :
    ∃ t, (if s.blk.ee.len = 0 then .next (s.done 0) else .fault .noPosition : Result) = .next t := ⟨_, if_pos hl⟩

theorem eerdbStep_completes (h : s.Coherent) (hst : s.blk.ee.Stands 2) : ∃ t, eerdbStep s = .next t := by
  rw [eerdbStep]
  exact memReadStep_completes h (fun hp => absurd hp (hst.byteRead rfl)) fun _ => Nat.one_pos

theorem eerdblkStep_completes (h : s.Coherent) (hst : s.blk.ee.Stands 3) : ∃ t, eerdblkStep s = .next t := by
  obtain ⟨hempty, hdata, _⟩ := hst.blockRead rfl
  rw [eerdblkStep_eq]
  exact memReadStep_completes h (fun hp => emptyBlock_completes (hempty.1 hp)) hdata

theorem eewrbStep_completes (h : s.Coherent) (hst : s.blk.ee.Stands 4) : ∃ t, eewrbStep s = .next t := by
  rw [eewrbStep]
  exact memWriteStep_completes h hst (.inl rfl) fun hp => absurd hp (hst.byteWrite rfl)

theorem eewrblkStep_completes (h : s.Coherent) (hst : s.blk.ee.Stands 5) : ∃ t, eewrblkStep s = .next t := by
  obtain ⟨hempty, _⟩ := hst.blockWrite rfl
  rw [eewrblkStep]
  exact memWriteStep_completes h hst (.inr rfl) fun hp => emptyBlock_completes (hempty.1 hp)

/-- The transmitter stops at no phase but IDLE (R171, R172). -/
theorem irtxStep_completes (hp : s.blk.tx.phase ≠ .idle) : ∃ t, irtxStep s = .next t := by
  unfold irtxStep
  dsimp only
  split
  case h_1 hi => exact absurd hi hp
  case h_5 => split <;> exact ⟨_, rfl⟩
  all_goals exact ⟨_, rfl⟩

theorem irrxStep_completes (s : State) : ∃ t, irrxStep s = .next t := by
  unfold irrxStep
  split <;> exact ⟨_, rfl⟩

/-- The engine of the operation in progress has a step from every coherent state (R28 to R31). -/
theorem engineOf_completes {i : Instr} (h : s.Coherent) (hb : s.blk.busy = true) (ho : s.blk.op = i.opcode) :
    ∃ t, engineOf i s = .next t := by
  have hst : s.blk.ee.Stands i.opcode := ho ▸ h.seq.stands hb
  cases i with
  | eesel bank => exact ⟨_, rfl⟩
  | eerdb addr => exact eerdbStep_completes h hst
  | eerdblk addr len => exact eerdblkStep_completes h hst
  | eewrb addr value => exact eewrbStep_completes h hst
  | eewrblk addr len => exact eewrblkStep_completes h hst
  | irtx command address => exact irtxStep_completes (h.seq.transmit hb ho).1
  | irrx => exact irrxStep_completes s

/-! ## No step stops -/

/-- No command stops: it is accepted, its engine steps, or nothing happens (R266; log 1). -/
theorem exec_completes (h : s.Coherent) (i : Instr) : ∃ t, exec i s = .next t := by
  cases hb : s.blk.busy with
  | false => exact ⟨_, exec_of_idle i hb⟩
  | true =>
    by_cases ho : s.blk.op = i.opcode
    · rw [exec_of_own hb ho]
      exact engineOf_completes h hb ho
    · exact ⟨_, exec_of_other hb ho⟩

/-- Every value of OP but 0 is an opcode of R107. -/
theorem op_cases {op : BitVec 3} (h : op ≠ 0) : op = 1 ∨ op = 2 ∨ op = 3 ∨ op = 4 ∨ op = 5 ∨ op = 6 ∨ op = 7 := by
  revert op
  decide

/-- With OP not 0 an operation in progress is one of a command (R23). -/
theorem exists_inProgress (hb : s.blk.busy = true) (ho : s.blk.op ≠ 0) : ∃ i, s.inProgress = some i := by
  rcases op_cases ho with h | h | h | h | h | h | h <;> exact ⟨_, by simp only [State.inProgress, hb, h]; rfl⟩

theorem engineStep_completes (h : s.Coherent) : ∃ t, engineStep s = .next t := by
  cases hb : s.blk.busy with
  | false => exact ⟨s, by simp [engineStep, hb]⟩
  | true =>
    obtain ⟨i, hi⟩ := exists_inProgress hb (h.seq.named hb)
    rw [engineStep_of_inProgress hi]
    exact exec_completes h i

theorem agentStep_completes (h : s.Coherent) (a : Agent) : ∃ t, agentStep a s = .next t := by
  cases a with
  | host => exact hostStep_completes s
  | engine => exact engineStep_completes h
  | idle => exact ⟨_, rfl⟩
  | commit b => exact ⟨_, rfl⟩
  | rst => exact ⟨_, rfl⟩

/-- Settles O21: each agent's step answers a next state, and the button's event after it stops nothing. -/
theorem coherentStatesRun : Obligations.CoherentStatesRun := by
  refine fun s h => ⟨?_, exec_completes h⟩
  obtain ⟨u, hu⟩ := agentStep_completes (h.setEnv _ : s.popSlot.Coherent) (nextSlot s).agent
  exact ⟨_, congrArg (thenNext · (withButton (nextSlot s))) hu⟩

end Sys2Proof.Machine
end


section
/-! SUPPORT. What any agent can do once a run is over, and that the run stays over (70_reset_and_hazards.md R265, R266). -/

namespace Sys2Proof.Machine

/-! ## When a run is over -/

theorem any_isCommand_eq_false {prog : List HostAct} :
    prog.any HostAct.isCommand = false ↔ ∀ n w, HostAct.write n w ∈ prog → n ≠ 0 := by
  rw [List.any_eq_false]
  constructor
  · intro h n w hm hn
    exact h _ hm (by simp [HostAct.isCommand, hn])
  · intro h act hm
    cases act with
    | write n w => simpa [HostAct.isCommand] using h n w hm
    | read n => simp [HostAct.isCommand]
    | awaitIdle => simp [HostAct.isCommand]

theorem runOver_iff {s : State} : s.runOver = true ↔
    (∀ n w, HostAct.write n w ∈ s.env.prog → n ≠ 0) ∧ s.blk.busy = false ∧
    ∀ b : Bank, ¬((bankAt s.banks b).busy = true ∧ (bankAt s.banks b).ours = true) := by
  simp only [State.runOver, Bool.and_eq_true, Bool.not_eq_true', any_isCommand_eq_false, anyBank_eq_false, listCycle,
    Bool.and_eq_false_imp, not_and, Bool.not_eq_true, and_assoc]

/-- A run that is over stays so where the list only shrinks, nothing is accepted and no bank begins a write cycle of the list's. -/
theorem runOver_of_subset {s t : State} (hs : s.runOver = true) (hprog : t.env.prog ⊆ s.env.prog) (hbusy : t.blk.busy = false)
    (hcycle : ∀ b : Bank, bankAt t.banks b = bankAt s.banks b ∨ (bankAt t.banks b).busy = false) : t.runOver = true := by
  obtain ⟨hcmd, _, hcyc⟩ := runOver_iff.1 hs
  refine runOver_iff.2 ⟨fun n w hm => hcmd n w (hprog hm), hbusy, fun b => ?_⟩
  rcases hcycle b with h | h
  · rw [h]
    exact hcyc b
  · simp [h]

theorem withButton_runOver (sl : Slot) (s : State) : (withButton sl s).runOver = s.runOver := by
  unfold withButton
  split <;> rfl

/-! ## What an agent can do then -/

theorem withButton_blk (sl : Slot) (s : State) : ∃ flag, (withButton sl s).blk = { s.blk with btnFlag := flag } := by
  unfold withButton
  split
  · exact ⟨true, rfl⟩
  · exact ⟨_, rfl⟩

/-- From `s` to `t` the host went on through its list: EE_BUF, BTN_FLAG and what surrounds the block may differ, and nothing else. -/
def HostWentOn (s t : State) : Prop :=
  ∃ (m : Memory) (flag : Bool) (e : Env), t = { s with blk.buf := m, blk.btnFlag := flag, env := e } ∧ e.prog ⊆ s.env.prog

theorem HostWentOn.refl (s : State) : HostWentOn s s := ⟨_, _, _, rfl, List.Subset.refl _⟩

/-- A write to a register other than CMD writes EE_BUF or BTN_FLAG at most (R21). -/
theorem regWrite_spec (num : Byte) (data : Word) (s : State) :
    ∃ (m : Memory) (flag : Bool), regWrite num data s = { s with blk.buf := m, blk.btnFlag := flag } := by
  rcases regWrite_cases num data s with ⟨_, h⟩ | ⟨_, i, _, _, h⟩ | ⟨_, _, h⟩
  · exact ⟨_, _, h.trans (hostWriteBtn_eq data s)⟩
  · obtain ⟨m, hm, _⟩ := bufWrite_spec i (data.truncate 8) s
    exact ⟨m, s.blk.btnFlag, h.trans hm⟩
  · exact ⟨_, _, h⟩

theorem hostRead_wentOn {e : Env} {s : State} (num : Byte) (hp : e.prog ⊆ s.env.prog) : HostWentOn s (hostRead num (s.setEnv e)) := by
  obtain ⟨e', h, hp', _⟩ := hostRead_spec num (s.setEnv e)
  refine ⟨s.blk.buf, s.blk.btnFlag, e', h, ?_⟩
  rw [hp']
  exact hp

/-- The host with no command left only goes on through its list. -/
theorem hostStep_wentOn {s t : State} (hcmd : ∀ n w, HostAct.write n w ∈ s.env.prog → n ≠ 0) (ht : hostStep s = .next t) :
    HostWentOn s t := by
  unfold hostStep at ht
  split at ht
  case h_1 => cases ht; exact .refl s
  case h_2 num data rest hp =>
    rw [hostWrite_of_ne_zero (hcmd num data (by simp [hp]))] at ht
    cases ht
    obtain ⟨m, flag, h⟩ := regWrite_spec num data (s.setEnv { s.env with prog := rest })
    exact ⟨m, flag, _, h, by simp [hp]⟩
  case h_3 num rest hp => cases ht; exact hostRead_wentOn num (by simp [hp])
  case h_4 rest hp =>
    cases ht
    split
    · exact hostRead_wentOn (e := s.env) 1 (List.Subset.refl _)
    · exact hostRead_wentOn 1 (by simp [hp])

/-- With nothing in progress every bank of a coherent state waits for a start condition (R76). -/
theorem State.Coherent.bank_idle {s : State} (h : s.Coherent) (hb : s.blk.busy = false) (b : Bank) :
    (bankAt s.banks b).mode = .idle := by
  obtain ⟨hi, _⟩ := h.at_rest hb
  exact ((h.fits b).rests (by rw [hi]; rfl)).idle

/-- A reset edge with nothing in progress cuts no transaction short (R37; log 15). -/
theorem rst_bank_of_idle {s : State} (h : s.Coherent) (hb : s.blk.busy = false) (b : Bank) :
    bankAt s.rst.banks b = bankAt s.banks b := by
  rw [rst_bank, bankCut_of_idle (h.bank_idle hb b)]

/-- No engine has a step any more: an agent's turn is the host's progress through its list, a commit, a reset edge, or nothing. -/
theorem agentStep_of_runOver {a : Agent} {s t : State} (ho : s.runOver = true) (ht : agentStep a s = .next t) :
    HostWentOn s t ∨ (∃ b, t = commitStep b s) ∨ (a = .rst ∧ t = s.rst) := by
  obtain ⟨hcmd, hb, _⟩ := runOver_iff.1 ho
  cases a with
  | idle => cases ht; exact .inl (.refl s)
  | host => exact .inl (hostStep_wentOn hcmd ht)
  | engine =>
    have hstay : agentStep .engine s = .next s := by simp [agentStep, engineStep, hb]
    cases hstay.symm.trans ht
    exact .inl (.refl s)
  | commit b => cases ht; exact .inr (.inl ⟨b, rfl⟩)
  | rst => cases ht; exact .inr (.inr ⟨rfl, rfl⟩)

/-! ## The run stays over -/

theorem bankCommit_busy (d : BankDev) : (bankCommit d).busy = false := by
  cases h : d.busy with
  | true => rw [bankCommit_of_busy h]
  | false => rw [bankCommit_of_not_busy h, h]

theorem agentStep_keeps_runOver {a : Agent} {s t : State} (h : s.Coherent) (ho : s.runOver = true) (ht : agentStep a s = .next t) :
    t.runOver = true := by
  obtain ⟨_, hb, _⟩ := runOver_iff.1 ho
  rcases agentStep_of_runOver ho ht with ⟨m, flag, e, rfl, hp⟩ | ⟨c, rfl⟩ | ⟨_, rfl⟩
  · exact runOver_of_subset ho hp hb fun _ => .inl rfl
  · refine runOver_of_subset ho (List.Subset.refl _) hb fun b => ?_
    rw [bankAt_commitStep]
    split
    · exact .inr (bankCommit_busy _)
    · exact .inl rfl
  · exact runOver_of_subset ho (List.Subset.refl _) rfl fun b => .inl (rst_bank_of_idle h hb b)

/-- Without a reset edge the block of an over run keeps all but EE_BUF and BTN_FLAG. -/
theorem agentStep_blk_of_runOver {a : Agent} {s t : State} (ho : s.runOver = true) (ha : a ≠ .rst) (ht : agentStep a s = .next t) :
    ∃ (m : Memory) (flag : Bool), t.blk = { s.blk with buf := m, btnFlag := flag } := by
  rcases agentStep_of_runOver ho ht with ⟨m, flag, e, rfl, _⟩ | ⟨c, rfl⟩ | ⟨hr, _⟩
  · exact ⟨m, flag, rfl⟩
  · exact ⟨_, _, rfl⟩
  · exact absurd hr ha

/-- A bank in no write cycle keeps its bytes, even at a commit of its own (R76). -/
theorem eepromByte_step_of_not_busy {s t : State} (ht : step s = .next t) {b : Bank} (hb : (bankAt s.banks b).busy = false) (a : Nat) :
    eepromByte t b a = eepromByte s b a := by
  rw [step_eepromByte ht]
  split
  · exact eepromByte_congr (by rw [bankAt_commitStep, if_pos rfl, bankCommit_of_not_busy hb]) a
  · rfl

/-- Settles O58: by what an agent can do once the run is over, with the button's event after it. -/
theorem endOfRun : Obligations.EndOfRun := by
  refine ⟨fun s => runOver_iff, fun acts s => ⟨rfl, rfl, loadList_bank acts s⟩, fun s t h ho ht => ?_⟩
  obtain ⟨u, hu, rfl⟩ := step_next ht
  refine ⟨?_, fun ha => ?_, fun b hb => eepromByte_step_of_not_busy ht hb⟩
  · rw [withButton_runOver]
    exact agentStep_keeps_runOver (h.setEnv _ : s.popSlot.Coherent) ho hu
  · obtain ⟨m, flag, hblk⟩ := agentStep_blk_of_runOver (s := s.popSlot) ho ha hu
    obtain ⟨flag', hevt⟩ := withButton_blk (nextSlot s) u
    rw [hevt, hblk]
    exact ⟨rfl, rfl, rfl, rfl, rfl⟩

end Sys2Proof.Machine
end
